-- ==== Sys2Proof/Word.lean ====
section
/-! DEFINITION. The word types of the VX9 and the numbers that name its units.
Registers are 64 bits wide and bit 0 is the least significant bit (R7). -/

namespace Sys2Proof

/-- A 64-bit device word (R7). -/
abbrev Word := BitVec 64
/-- A byte. -/
abbrev Byte := BitVec 8
/-- A 48-bit NoC byte address (R25). -/
abbrev Addr := BitVec 48
/-- A fabric die F0 to F3 (R23). -/
abbrev DieId := Fin 4
/-- A panel P0 to P31 (R24). -/
abbrev PanelId := Fin 32
/-- A word cell, numbered panel × 36,864 + column × 256 + row within its panel (R24, R387). -/
abbrev CellId := Fin 1179648
/-- A regional clock, numbered panel × 16 + i (R91). -/
abbrev RclkId := Fin 512
/-- A signal engine e (R23). -/
abbrev EngId := Fin 3840
/-- A block memory bank n (R23). -/
abbrev BankId := Fin 3072
/-- A router (X,Y), numbered X × 16 + Y as its register block is (R26). -/
abbrev RouterId := Fin 400
/-- A GDDR7 controller Mm and its guard (R269). -/
abbrev McId := Fin 8
/-- A serial lane L (R336). -/
abbrev LaneId := Fin 128
/-- A lane quad Q (R336). -/
abbrev QuadId := Fin 32
/-- A PLL of a fabric die, numbered die × 10 + i (R477). -/
abbrev PllId := Fin 40
/-- A cross-trigger channel (R591). -/
abbrev ChanId := Fin 16

/-- A sparse table: keys rising, no entry equal to the table's default (log entry 3). -/
abbrev Tbl (α : Type) := List (Nat × α)

end Sys2Proof
end

