-- ==== Sys2Proof/Syntax.lean ====
section
/-! DEFINITION. The commands of the VX9: one constructor of Instr per row of spec/opcode_table.json.
The table gives the rows no operands; the operands here name the unit a step acts on and carry what comes from
outside the part (data, pin levels, errors found on a read, measured power), log entry 1. -/

namespace Sys2Proof

/-- A 64-bit word with its poison mark (R31). -/
structure PWord where
  val : Word
  pois : Bool
  deriving DecidableEq, Repr

/-- What the routing offers a word cell in one cycle: word inputs WI0 to WI3, bit inputs BI7 to BI0 (R42). -/
structure CellIn where
  wi0 : Word
  wi1 : Word
  wi2 : Word
  wi3 : Word
  bi : BitVec 8
  deriving DecidableEq, Repr

/-- A unit with an isolation wrapper at its NoC edge (R37). -/
inductive UnitRef where
  | engine (e : EngId)
  | bankGroup (g : Fin 384)
  | controller (m : McId)
  | quad (q : QuadId)
  | queue (l : LaneId)
  | port (p : PanelId) (q : Fin 64)
  | router (r : RouterId)
  | darner (d : DieId)
  | hub (k : Fin 9)       -- slots 0 to 6 of router (0,5), then the south and the north window (R231)
  deriving DecidableEq, Repr

/-- A source of a regional reset tree that a command can assert (R100); EN 0 and the start-up hold follow the state. -/
inductive TreeSrc where
  | wide      -- a reset of reach POWER-ON, COLD or WARM
  | panel     -- a PANEL reset of its panel
  | load      -- the panel is being loaded or its set/reset release has not been reached
  | rrst      -- the RRST tap is active as URST sets
  | force     -- a forced switch of its multiplexer holds it
  deriving DecidableEq, Repr

/-- An edge of a legacy clock net (R449, R451, R471): the net, the levels at the 288 legacy balls, and what native logic drives on
LGB_I. -/
structure LgEdge where
  net : Fin 8
  balls : BitVec 288
  native : BitVec 288
  deriving DecidableEq, Repr

/-- The header of a request packet as its initiator gives it (R233); RIGHTS is written by the interface (R28).
`port` data of WR follows as words, four to a unit. -/
structure Hdr where
  init : BitVec 16
  addr : Addr
  len : Nat
  tag : BitVec 10
  cls : Fin 4
  imm : Word
  immPois : Bool
  deriving DecidableEq, Repr

/-- What a request meets at its target that only the world can say: whether the port it needs is wanted in every
cycle by others (R108, R191), and the bits in error among the 80 of each word read (R202), there and, for a write
transfer of an engine, in each word it sends (R111). -/
structure ReqEnv where
  busy : Bool
  flips : List (BitVec 80)
  src : List (BitVec 80) := []
  deriving DecidableEq, Repr

/-- What a response meets: its request's latency in router cycles (R256), and whether user logic behind a fabric port
that takes it holds RS_READY high (R66, R69). -/
structure RespEnv where
  lat : Nat
  ready : Bool := true
  deriving DecidableEq, Repr

/-- What has changed of a stored line in the devices since they took it: bytes 0 to 71 and the bits that differ (R271, R273;
log entry 54). -/
abbrev LineErrs := List (Nat × Byte)

/-- The codeword that brought a block at a PAM4 rate (R345): the logical lane it came on, whether the block is its first, and the
10-bit symbols received in error among its 544. -/
structure CwSeen where
  lane : Nat := 0
  head : Bool := false
  errs : List (Nat × BitVec 10) := []
  deriving DecidableEq, Repr

/-- A native frame as it arrives (R327, R349). -/
structure NFrame where
  ftype : Byte
  units : Byte
  seq : BitVec 16
  rsvd : BitVec 32 := 0
  payload : List Byte
  tag : BitVec 128
  deriving DecidableEq, Repr

/-- One word of a configuration frame found in error (R422): its index 0 to 368 and the bits in error among its 72. -/
structure FrameErr where
  word : Nat
  flip : BitVec 72
  deriving DecidableEq, Repr

/-- A carrier of Uluat messages (R629 to R633): the service port, JTAG OBJ, or a hub window with its initiator ID. -/
inductive Carrier where
  | port (src : BitVec 48 := 0)   -- on 10BASE-T1S, the source address of the frame (R631)
  | jtag
  | window (init : BitVec 16)
  deriving DecidableEq, Repr

/-- The full header and payload of a host message, and its tag where one is sent (R634, R640). -/
structure Msg where
  sid : Byte
  tid : Byte
  sub : Byte
  index : BitVec 16
  segd : Bool
  payload : List Byte
  tag : List Byte
  deriving DecidableEq, Repr

/-- The commands, one constructor per row of the table, in the table's order. -/
inductive Instr where
  -- 00, 01: registers, units
  | registerWrite (init : BitVec 16) (addr : Addr) (v : Word)
  | unitDisable (u : UnitRef)
  | drainExpire (u : UnitRef)
  | drainComplete (u : UnitRef)
  | unitEnable (u : UnitRef)
  | wrapperOpen (u : UnitRef)
  -- 02: word cells
  | cellNop (c : CellId) (i : CellIn)
  | cellMov (c : CellId) (i : CellIn)
  | cellMovb (c : CellId) (i : CellIn)
  | cellAdd (c : CellId) (i : CellIn)
  | cellSub (c : CellId) (i : CellIn)
  | cellCmp (c : CellId) (i : CellIn)
  | cellMin (c : CellId) (i : CellIn)
  | cellMax (c : CellId) (i : CellIn)
  | cellAbsd (c : CellId) (i : CellIn)
  | cellAnd (c : CellId) (i : CellIn)
  | cellOr (c : CellId) (i : CellIn)
  | cellXor (c : CellId) (i : CellIn)
  | cellAndn (c : CellId) (i : CellIn)
  | cellShl (c : CellId) (i : CellIn)
  | cellShr (c : CellId) (i : CellIn)
  | cellRol (c : CellId) (i : CellIn)
  | cellRor (c : CellId) (i : CellIn)
  | cellExt (c : CellId) (i : CellIn)
  | cellIns (c : CellId) (i : CellIn)
  | cellPopc (c : CellId) (i : CellIn)
  | cellClz (c : CellId) (i : CellIn)
  | cellMullo (c : CellId) (i : CellIn)
  | cellMulhi (c : CellId) (i : CellIn)
  | cellMulw0 (c : CellId) (i : CellIn)
  | cellMulw1 (c : CellId) (i : CellIn)
  | cellDot4 (c : CellId) (i : CellIn)
  | cellDotacc (c : CellId) (i : CellIn)
  | governorLimiterTick (d : DieId)
  | governorInterval (device : Nat) (outside : Nat)
  | governorOver (dies : BitVec 4)
  | governorControlWrite (v : Word)
  -- 03: regional clocks
  | clockSwitchStart (r : RclkId) (rsel : Fin 4)
  | clockSwitchDone (r : RclkId)
  | clockGate (r : RclkId)
  | clockUngate (r : RclkId)
  | regionalResetAssert (r : RclkId) (src : TreeSrc)
  | regionalResetRelease (r : RclkId)
  -- 04, 05: signal engines
  | engNop (e : EngId)
  | engCmul (e : EngId)
  | engCadd (e : EngId)
  | engCsub (e : EngId)
  | engMac (e : EngId)
  | engFtap (e : EngId)
  | engBfly (e : EngId)
  | engFft8 (e : EngId)
  | engAclr (e : EngId)
  | engArd (e : EngId)
  | engArdc (e : EngId)
  | engCvtf (e : EngId)
  | engCvti (e : EngId)
  | engAxfr (e : EngId)
  | engVmov (e : EngId)
  | engVand (e : EngId)
  | engVor (e : EngId)
  | engVxor (e : EngId)
  | engVrot (e : EngId)
  | engSmov (e : EngId)
  | engSadd (e : EngId)
  | engSaddi (e : EngId)
  | engSldi (e : EngId)
  | engAgadd (e : EngId)
  | engVext (e : EngId)
  | engVins (e : EngId)
  | engBr (e : EngId)
  | engBrz (e : EngId)
  | engBrnz (e : EngId)
  | engRep (e : EngId)
  | engLoop (e : EngId)
  | engWaite (e : EngId)
  | engReti (e : EngId)
  | engHalt (e : EngId)
  | engXfer (e : EngId)
  | loadQuad (e : EngId) (k : Fin 2) (flips : List (BitVec 80))
  | loadWord (e : EngId) (k : Fin 2) (flips : List (BitVec 80))
  | loadF (e : EngId) (k : Fin 2) (flips : List (BitVec 80))
  | storeQuad (e : EngId) (k : Fin 2)
  | storeWord (e : EngId) (k : Fin 2)
  | storeQuadObserved (e : EngId) (k : Fin 2)
  | engPortWaitExpire (e : EngId)
  | haltComplete (e : EngId)
  | interruptEntry (e : EngId)
  | exceptionEntry (e : EngId) (flip : BitVec 80)
  | xferComplete (e : EngId)
  | runAheadFetch (e : EngId) (g : Fin 8) (flips : List (BitVec 80))
  | verdictGood (e : EngId) (v : Fin 4)
  | verdictBad (e : EngId) (v : Fin 4)
  | verdictRetire (e : EngId)
  | watchdogExpire (e : EngId)
  | engWdtWrite (e : EngId) (v : Word)
  | engHaltRequest (e : EngId)
  | engResume (e : EngId)
  | engHoldReset (e : EngId) (hold : Bool)
  | engIntHost (e : EngId)
  -- 06: banks
  | bankRead (b : BankId) (i : Fin 2) (same : Bool) (addr : BitVec 16) (flip : BitVec 80)
  | bankWrite (b : BankId) (i : Fin 2) (same : Bool) (addr : BitVec 16) (w : PWord) (be : BitVec 8) (flip : BitVec 80)
  | bankFadd (b : BankId) (i : Fin 2) (same : Bool) (addr : BitVec 16) (w : PWord) (flip : BitVec 80)
  | bankSwap (b : BankId) (i : Fin 2) (same : Bool) (addr : BitVec 16) (w : PWord) (flip : BitVec 80)
  | bankReserveRead (b : BankId) (i : Fin 2) (same : Bool) (addr : BitVec 16) (flip : BitVec 80)
  | bankConditionalWrite (b : BankId) (i : Fin 2) (same : Bool) (addr : BitVec 16) (w : PWord) (flip : BitVec 80)
  | bankPortWaitExpire (b : BankId)
  | correctionWriteBack (b : BankId)
  | writeBackForce (b : BankId)
  | reservationLapse (b : BankId) (word : Fin 8192)
  | bankHandover (init : BitVec 16) (b : BankId) (v : Word)
  | handoverComplete (b : BankId)
  | bankModeWrite (init : BitVec 16) (b : BankId) (v : Word)
  | remapSet (b : BankId) (k : Fin 4) (word : Fin 8192) (flip : BitVec 80)
  | remapClear (b : BankId) (k : Fin 4) (flip : BitVec 80)
  | bankErrClear (b : BankId)
  | scrubRead (b : BankId) (flip : BitVec 80) (us : Nat)
  | scrubStarve (b : BankId)
  | bistStart (b : BankId) (mode : Fin 4)
  | bistStop (b : BankId)
  | bistStep (b : BankId) (mismatch : Bool) (flip : BitVec 80)
  | bankPowerRequest (b : BankId) (req : Fin 4)
  | bankPowerDone (b : BankId)
  | bankLingerExpire (b : BankId)
  -- 07: the network
  | nocRd (h : Hdr) (v : ReqEnv)
  | nocRde (h : Hdr) (v : ReqEnv)
  | nocWr (h : Hdr) (data : List PWord) (v : ReqEnv)
  | nocWri1 (h : Hdr) (v : ReqEnv)
  | nocWri2 (h : Hdr) (v : ReqEnv)
  | nocWri4 (h : Hdr) (v : ReqEnv)
  | nocWri8 (h : Hdr) (v : ReqEnv)
  | nocFadd (h : Hdr) (v : ReqEnv)
  | nocSwap (h : Hdr) (v : ReqEnv)
  | nocRsvrd (h : Hdr) (v : ReqEnv)
  | nocCwr (h : Hdr) (v : ReqEnv)
  | nocRdr (init : BitVec 16) (tag : BitVec 10) (user : List PWord) (e : RespEnv)
  | nocWra (init : BitVec 16) (tag : BitVec 10) (e : RespEnv)
  | nocAtr (init : BitVec 16) (tag : BitVec 10) (e : RespEnv)
  | nocErr (init : BitVec 16) (tag : BitVec 10) (e : RespEnv)
  | responseTimeout (init : BitVec 16) (tag : BitVec 10)
  | deadTagExpire (init : BitVec 16) (tag : BitVec 10)
  | c0GapExpire (init : BitVec 16)
  | holdTimeout (r : RouterId) (slot : Fin 16)
  | linkCrcError (r : RouterId) (l : Fin 4) (row : Nat)
  | linkRetrainDone (r : RouterId) (l : Fin 4)
  | linkRetrainFail (r : RouterId) (l : Fin 4)
  | routerChange (r : RouterId)
  | routerChangeDone (r : RouterId) (cycles : Nat)
  | routerChangeAbort (r : RouterId)
  | statsWindow (r : RouterId) (k : Nat)
  | statsClear (r : RouterId) (k : Nat)
  | linkCountersClear (r : RouterId)
  -- 08: controllers
  | lineWriteBack (m : McId)
  | mcRefresh (m : McId) (bank : Fin 128)
  | mcTempHigh (m : McId)
  | mcPowerDown (m : McId)
  | mcTrainingStart (m : McId)
  | mcTrainingDone (m : McId) (failch : BitVec 8) (dur : Nat)
  | mcRetrain (m : McId)
  | mcRetrainDone (m : McId) (failch : BitVec 8) (dur : Nat)
  | commandConfirm (m : McId)
  | parityAlert (m : McId)
  | mcRecoveryDone (m : McId) (failch : BitVec 8) (ok : Bool) (dur : Nat)
  | patrolScrub (m : McId) (errs : List LineErrs)
  | mcErrClear (m : McId)
  -- 09: the guard
  | guardInit (m : McId)
  | guardInitDone (m : McId)
  | metadataArrive (m : McId) (j : Nat) (errs : LineErrs)
  | dataLineArrive (m : McId) (n : Nat) (errs : LineErrs)
  | reencryptDone (m : McId) (errs : List (Nat × LineErrs))
  | cacheWriteBack (m : McId)
  | rebuildWrite (m : McId)
  | rebuildDone (m : McId)
  | uerateRearm (m : McId)
  | windowWrite (m : McId) (n : Fin 16) (rights : Bool) (v : Word)
  | guardErrClear (m : McId)
  -- 09, 10: lanes and links
  | nativeFrameSend (l : LaneId) (ftype : Byte) (payload : List Byte)
  | nativeFrameReceive (l : LaneId) (f : NFrame) (cw : CwSeen := {})
  | ctlIdle (l : LaneId) (cw : CwSeen := {})
  | ctlSof (l : LaneId) (cw : CwSeen := {})
  | ctlAck (l : LaneId) (seq : Nat) (cw : CwSeen := {})
  | ctlNak (l : LaneId) (seq : Nat) (cw : CwSeen := {})
  | ctlAm (l : LaneId) (logical : Fin 16) (mask : BitVec 16) (cw : CwSeen := {})
  | ctlRestripe (l : LaneId) (mask : BitVec 16) (confirm : Bool) (cw : CwSeen := {})
  | ctlCap (l : LaneId) (round : Fin 16) (part : Fin 16) (bytes : List Byte) (cw : CwSeen := {})
  | ctlAbort (l : LaneId) (cw : CwSeen := {})
  | ctlSleep (l : LaneId) (cw : CwSeen := {})
  | lockLost (l : LaneId)
  | laneLoss (l : LaneId) (logical : Fin 16)
  | restripeAligned (l : LaneId)
  | replayTimeout (l : LaneId)
  | nakTimeout (l : LaneId)
  | ackTimer (l : LaneId)
  | detectProbe (l : LaneId) (found : BitVec 16)
  | trainDone (l : LaneId) (mask : BitVec 16) (partnerPre : Bool)
  | trainTimeout (l : LaneId)
  | lockDone (l : LaneId)
  | lockTimeout (l : LaneId)
  | capTimeout (l : LaneId)
  | laneRetrain (q : QuadId) (lanes : BitVec 4)
  | lanePowerRequest (q : QuadId) (v : Word)
  | sleepEntry (l : LaneId)
  | rxSignalReturn (l : LaneId)
  | ethLinkFail (l : LaneId)
  | streamTx (q : QuadId) (st : Fin 4) (data : List Word) (ctl : BitVec 32) (abort : Bool)
  | streamRx (q : QuadId) (st : Fin 4) (data : List Word) (ctl : BitVec 32) (err : Bool)
  | dmaTx (l : LaneId) (desc : List Word) (buf : List PWord) (readErr : Bool)
  | dmaRx (l : LaneId) (desc : List Word) (frame : List Byte) (bad : Bool)
  | dmaKick (l : LaneId)
  | dmaEnable (l : LaneId)
  | dmaDisable (l : LaneId)
  | laneErrClear (l : LaneId)
  -- 11: the loader
  | loadStart (init : BitVec 16) (v : Word)
  | loadAbort (init : BitVec 16)
  | streamData (src : Fin 16) (bytes : List Byte)
  | bootDirectoryRead (bytes : List Byte)
  | basteReady
  | basteWaitTimeout
  | receiveDone
  | verifyDone (poisoned : Bool)
  | commitDone (readOk : Bool)
  | frameRecord
  | regRecord
  | memRecord
  | secretRecord
  | legacyRecord
  | trailerRecord
  | endRecord
  | startupPll
  | startupOut
  | startupSr
  | startupWe
  | startupWaitMet (pin : Fin 2) (level : Bool)
  | startupWaitTimeout
  -- 12: panels and the Darner
  | isolationDone
  | seamFreezeTimeout (p : PanelId)
  | darnerLap (d : DieId) (fix : BitVec 3) (noMajority : Bool)
  | darnerFrameCheck (p : PanelId) (col : Fin 161) (row : Fin 16) (errs : List FrameErr) (crcBad : Bool)
  | panelReload (p : PanelId)
  | recoveryDone (p : PanelId)
  | recoveryFail (p : PanelId) (written : Fin 2321)
  | darnerStall (d : DieId)
  | darnerCtlWrite (d : DieId) (v : Word)
  | darnerErrClear (d : DieId)
  | pnlRecWrite (v : Word)
  -- 13: compatibility mode
  | lgProgFall
  | lgProgRise
  | lgDevice (payload : List Byte)
  | lgOptions (payload : List Byte)
  | lgIv (payload : List Byte)
  | lgFrames (payload : List Byte)
  | lgFinish
  | lgExtest
  | lgSamplePreload
  | lgIdcode
  | lload (bits : List Bool)
  | lstatus
  | lclear
  | lkey (key : BitVec 128)
  | ldone
  | lscan0
  | lscan1
  | lgNative
  | lgBypass
  -- 14: clocks and power
  | oscTrim
  | refLoss (code : Fin 32) (d : DieId)
  | refValid (code : Fin 32) (d : DieId) (khz : Nat)
  | pllLock (i : PllId)
  | pllOdivWrite (i : PllId) (v : Word)
  | pllCfgWrite (i : PllId) (v : Word)
  | clockStallReg (r : Fin 514)
  | clockForce (init : BitVec 16) (v : Word)
  | forceRelease
  | clkoutWrite (k : Fin 2) (v : Word)
  | clkoutForce (k : Fin 2)
  | pwrOppWrite (d : DieId) (v : Word)
  | freqSlewDone (d : DieId)
  | avsAck (d : DieId)
  | avsTimeout (d : DieId)
  | avsRetry (d : DieId)
  | voltageSettled (d : DieId)
  | voteSet (init : BitVec 16) (v : Word)
  | voteClr (init : BitVec 16) (v : Word)
  | domainLingerExpire (n : Fin 2048)
  | domainEntryDone (n : Fin 2048)
  | cgRegate (n : Fin 2048)
  -- 15: reset and bring-up
  | resetSourceAssert (code : Fin 16) (reach : Fin 8)
  | resetSourceRelease (code : Fin 16)
  | resetStretchExpire
  | resetRelease
  | rstNLow
  | rstNHigh
  | powerOnDetect
  | vaonBrownout
  | coreBrownout (rail : Fin 6)
  | railBrownout (rail : Fin 13)
  | thermalTrip
  | thermalClear
  | lockstepMismatch
  | hubWatchdogExpire
  | rstCmdUnit (init : BitVec 16) (v : Word)
  | rstCmdPanel (init : BitVec 16) (v : Word)
  | rstCmdHub (init : BitVec 16) (v : Word)
  | rstCmdWarm (init : BitVec 16) (v : Word)
  | rstCmdCold (init : BitVec 16) (v : Word)
  | rstCmdPowerOn (init : BitVec 16) (v : Word)
  | rstCmdShutdown (init : BitVec 16) (v : Word)
  | hubFirmwareReload
  | powerGood (ohms : Nat) (pudsel : Bool) (spId : Fin 16) (hv7is33 : Bool) (bbLost : Bool)
  | hubTrims (primaryOk : Bool) (copyOk : Bool)
  | dieDiscovery (found : BitVec 4)
  | dieTrims (recordOk : BitVec 4)
  | nocLinkTraining (ok : Bool)
  | laneReceiverDetect
  | shutdownRequest
  -- 18: self-test
  | selftestSliceEnd (fails : List Nat) (margins : List Nat)
  | sliceTimeout
  | selftestTotalTimeout
  -- 16: security
  | fuseProgram (init : BitVec 16)
  | fuseProgramDone (readBackOk : Bool)
  | bbrWriteCk (init : BitVec 16)
  | bbrWriteLk (init : BitVec 16)
  | bbrEraseCk (init : BitVec 16)
  | bbrEraseLk (init : BitVec 16)
  | bbrEraseAll (init : BitVec 16)
  | tamperPin
  | voltageGlitch
  | clockGlitch
  | zeroisationDone
  | trngHealthFail
  | trngRead
  -- 17: debug
  | tapReset
  | tapExtest
  | tapSamplePreload
  | tapIdcode
  | tapExtestPulse
  | tapExtestTrain
  | tapHighz
  | tapDbgctl
  | tapDbgchal
  | tapDbgtoken (bytes : List Byte)
  | tokenDecision
  | levelRequest (req : Fin 4)
  | tapDap
  | dapRead (addr : Addr) (v : ReqEnv)
  | dapWrite (addr : Addr) (v : Word) (e : ReqEnv)
  | tapTrace (d : DieId)
  | tapCfgin (bits : List Bool)
  | tapCfgrd
  | tapRstcmd (v : Word)
  | tapObj
  | tapBypass
  | aliasRead (init : BitVec 16) (addr : Addr)
  | debugHalt (e : EngId)
  | debugStep (e : EngId)
  | xtrigFire (mask : BitVec 16)
  | xtrigPin
  | lockDeferTimeout (p : PanelId) (q : Fin 64)
  | panelResume (p : PanelId)
  | traceEnable (d : DieId) (v : Word)
  | vtTxWrite (e : EngId) (v : Word)
  | vtTxRead (e : EngId)
  | vtRxWrite (e : EngId) (v : Word)
  | vtRxRead (e : EngId)
  -- 18: faults
  | d2dWireFault (crossing : Fin 6) (group : Fin 256) (wire : Fin 128)
  | d2dSwapDone (crossing : Fin 6)
  | repairCommit
  -- 19: Uluat
  | uluatOpen (c : Carrier) (tid : Byte) (level : Byte) (cn : List Byte)
  | uluatAuth (c : Carrier) (m : Msg)
  | authTimeout (slot : Fin 8)
  | uluatRead (c : Carrier) (m : Msg)
  | uluatWrite (c : Carrier) (m : Msg)
  | objectExecute
  | uluatSeg (c : Carrier) (sid : Byte) (tid : Byte) (seq : Byte) (data : List Byte) (last : Bool) (tag : List Byte)
  | uluatSegack (c : Carrier) (sid : Byte) (tid : Byte) (seq : Byte) (retry : Bool) (tag : List Byte)
  | segmentTimeout (slot : Fin 8)
  | uluatSubscribe (c : Carrier) (m : Msg)
  | uluatClose (c : Carrier) (m : Msg)
  | sessionIdle (slot : Fin 8)
  | canBusOff
  | regBridgeRead (slot : Fin 8)
  | regBridgeWrite (slot : Fin 8) (v : Word)
  | publicationWrite (slot : Fin 8) (entry : Fin 32) (v : Word)
  | bitModeClock (c : CellId) (i : CellIn) (edge : Option LgEdge := none)
  | pllStepTimeout
  | sourceError
  deriving DecidableEq, Repr

end Sys2Proof
end

