-- ==== Sys2Proof/Machine/Fields.lean ====
section
/-! DEFINITION. Bit fields of registers, the access codes of R13 to R19, and sparse tables. -/

namespace Sys2Proof.Machine
open Sys2Proof

/-- The value of field [hi:lo] of a word (R8). -/
def fld (w : Word) (hi lo : Nat) : Nat := (w.toNat >>> lo) % 2 ^ (hi + 1 - lo)

/-- The bits of field [hi:lo]. -/
def fldMask (hi lo : Nat) : Word := BitVec.ofNat 64 ((2 ^ (hi + 1 - lo) - 1) <<< lo)

/-- The word with field [hi:lo] set to v (taken modulo the field's width). -/
def setFld (w : Word) (hi lo v : Nat) : Word :=
  (w &&& ~~~ fldMask hi lo) ||| (BitVec.ofNat 64 ((v % 2 ^ (hi + 1 - lo)) <<< lo))

/-- Bit i of a word. -/
def bitOf (w : Word) (i : Nat) : Bool := w.getLsbD i

/-- The word with bit i set to b. -/
def setBit (w : Word) (i : Nat) (b : Bool) : Word := setFld w i i (if b then 1 else 0)

/-- A word built from fields (hi, lo, value); every other bit is 0. -/
def mkWord (fs : List (Nat × Nat × Nat)) : Word :=
  fs.foldl (fun w f => setFld w f.1 f.2.1 f.2.2) 0

/-- The access codes of R13. -/
inductive Acc where
  | const | ro | rw | wo | rwn | w1c
  deriving DecidableEq, Repr

/-- One field of a register table: bits, access. -/
structure Field where
  hi : Nat
  lo : Nat
  acc : Acc
  deriving DecidableEq, Repr

/-- The bits of a table's fields with a given access code. -/
def accMask (tab : List Field) (a : Acc) : Word :=
  tab.foldl (fun m f => if f.acc = a then m ||| fldMask f.hi f.lo else m) 0

/-- A write of a register as its access codes state (R13, R19): RW fields take the new value,
W1C bits written as 1 clear, every other bit is unchanged. WO fields hold nothing. -/
def writeTab (tab : List Field) (old new : Word) : Word :=
  let rw := accMask tab .rw
  let wc := accMask tab .w1c
  ((old &&& ~~~ rw) ||| (new &&& rw)) &&& ~~~ (new &&& wc)

/-- What hardware sets of a W1C register stands over a clear in the same cycle (R16). -/
def hwSet (w bits : Word) : Word := w ||| bits

/-- A counter of the given width that stops at its top value. -/
def satAdd (width x n : Nat) : Nat := min (2 ^ width - 1) (x + n)

/-- Field [hi:lo] incremented, wrapping. -/
def incFld (w : Word) (hi lo : Nat) : Word := setFld w hi lo (fld w hi lo + 1)

/-- Field [hi:lo] raised by n, saturating. -/
def satFld (w : Word) (hi lo n : Nat) : Word := setFld w hi lo (satAdd (hi + 1 - lo) (fld w hi lo) n)

/-- Reading a sparse table: an unlisted key reads as the default. -/
def tget {α : Type} (d : α) : Tbl α → Nat → α
  | [], _ => d
  | (k, v) :: t, i => if i = k then v else tget d t i

/-- Removing a key. -/
def tdel {α : Type} : Tbl α → Nat → Tbl α
  | [], _ => []
  | (k, v) :: t, i => if i = k then tdel t i else (k, v) :: tdel t i

/-- Putting a value at a key, keys rising. -/
def tput {α : Type} : Tbl α → Nat → α → Tbl α
  | [], i, x => [(i, x)]
  | (k, v) :: t, i, x =>
    if i < k then (i, x) :: (k, v) :: t
    else if i = k then (i, x) :: t
    else (k, v) :: tput t i x

/-- Writing a sparse table: writing the default removes the entry (log entry 3). -/
def tset {α : Type} [DecidableEq α] (d : α) (t : Tbl α) (i : Nat) (x : α) : Tbl α :=
  if x = d then tdel t i else tput t i x

/-- Every listed value changed by f; entries that become the default are removed. -/
def tmap {α : Type} [DecidableEq α] (d : α) (f : Nat → α → α) : Tbl α → Tbl α
  | [] => []
  | (k, v) :: t => if f k v = d then tdel (tmap d f t) k else (k, f k v) :: tmap d f t

/-- Only the entries whose key satisfies p are kept. -/
def tfilter {α : Type} (p : Nat → Bool) (t : Tbl α) : Tbl α := t.filter (fun e => p e.1)

/-- Keys strictly rising above a bound, and no entry equal to the default of its key. -/
def twfFrom {α : Type} [DecidableEq α] (d : α) : Nat → Tbl α → Bool
  | _, [] => true
  | lo, (k, v) :: t => decide (lo ≤ k) && decide (v ≠ d) && twfFrom d (k + 1) t

/-- The canonical form of a sparse table (log entry 3). -/
def twf {α : Type} [DecidableEq α] (d : α) (t : Tbl α) : Bool := twfFrom d 0 t

/-- The elements satisfying p before the first that does, that element, and the rest. -/
def takeFirst {α : Type} (p : α → Bool) : List α → Option (α × List α)
  | [] => none
  | x :: xs => if p x then some (x, xs) else
    match takeFirst p xs with
    | none => none
    | some (y, ys) => some (y, x :: ys)

/-- Bit i of a natural number taken as a mask. -/
def nbit (m i : Nat) : Bool := (m >>> i) % 2 = 1

/-- The mask with bit i set. -/
def nset (m i : Nat) : Nat := m ||| (1 <<< i)

/-- The mask with bit i clear. -/
def nclr (m i : Nat) : Nat := if nbit m i then m - (1 <<< i) else m

/-- The indices below n of the set bits of a mask. -/
def bitsOf (n m : Nat) : List Nat := (List.range n).filter (nbit m)

/-- A field taken as a two's complement integer of the given width. -/
def sext (width x : Nat) : Int :=
  if x % 2 ^ width < 2 ^ (width - 1) then (x % 2 ^ width : Int) else (x % 2 ^ width : Int) - 2 ^ width

/-- A big-endian number from bytes. -/
def beNat (bs : List Byte) : Nat := bs.foldl (fun a b => a * 256 + b.toNat) 0

/-- A little-endian number from bytes, and bytes from a number. -/
def leNat (bs : List Byte) : Nat := bs.foldr (fun b a => a * 256 + b.toNat) 0
def leBytes (n x : Nat) : List Byte := (List.range n).map (fun i => BitVec.ofNat 8 (x >>> (8 * i)))

end Sys2Proof.Machine
end

