-- ==== Sys2Proof/Machine/Cipher.lean ====
section
/-! DEFINITION. The published codes that external memory is stored under: AES-256 in counter mode and GHASH (R302, R308,
R309), and the Reed-Solomon code of R272. -/

namespace Sys2Proof.Machine
open Sys2Proof

/-! ### GF(2^8) -/

/-- x times a in GF(2^8), p the primitive polynomial without its x^8. -/
def gfX (p a : Byte) : Byte := (a <<< 1) ^^^ (if a.getLsbD 7 then p else 0)
def gfMul (p a b : Byte) : Byte :=
  ((List.range 8).foldl (fun (x : Byte × Byte) i => (if b.getLsbD i then x.1 ^^^ x.2 else x.1, gfX p x.2)) (0, a)).1

/-! ### AES-256 (FIPS 197, as R302 and R308 name it) -/

/-- The S-box, byte i at bits 8i + 7 : 8i. -/
def aesBox : Nat :=
  0x16BB54B00F2D99416842E6BF0D89A18CDF2855CEE9871E9B948ED9691198F8E19E1DC186B95735610EF6034866B53E708A8BBD4B1F74DDE8C6B4A61C2E2578BA08AE7A65EAF4566CA94ED58D6D37C8E779E4959162ACD3C25C2406490A3A32E0DB0B5EDE14B8EE4688902A22DC4F816073195D643D7EA7C41744975FEC130CCDD2F3FF1021DAB6BCF5389D928F40A351A89F3C507F02F94585334D43FBAAEFD0CF584C4A39BECB6A5BB1FC20ED00D153842FE329B3D63B52A05A6E1B1A2C830975B227EBE28012079A059618C323C7041531D871F1E5A534CCF73F362693FDB7C072A49CAFA2D4ADF04759FA7DC982CA76ABD7FE2B670130C56F6BF27B777C63
/-- SubBytes of n bytes. -/
def aesSubAll (n : Nat) {w : Nat} (x : BitVec w) : BitVec w :=
  BitVec.ofNat w ((List.range n).foldl (fun a i => a + (aesBox >>> (8 * (x.toNat >>> (8 * i) % 256)) % 256) <<< (8 * i)) 0)

/-- Eight words of the key schedule from the eight before them. -/
def aesNext (k : BitVec 256) (rcon : Byte) : BitVec 256 :=
  let at_ := fun (i : Nat) => k.extractLsb' (224 - 32 * i) 32
  let a0 := at_ 0 ^^^ aesSubAll 4 ((at_ 7).rotateLeft 8) ^^^ (rcon ++ (0 : BitVec 24))
  let a1 := at_ 1 ^^^ a0
  let a2 := at_ 2 ^^^ a1
  let a3 := at_ 3 ^^^ a2
  let a4 := at_ 4 ^^^ aesSubAll 4 a3
  let a5 := at_ 5 ^^^ a4
  let a6 := at_ 6 ^^^ a5
  a0 ++ a1 ++ a2 ++ a3 ++ a4 ++ a5 ++ a6 ++ (at_ 7 ^^^ a6)

/-- The 15 round keys, two for each step of the schedule. -/
def aesKeys : Nat → Byte → BitVec 256 → List (BitVec 128)
  | 0, _, k => [k.extractLsb' 128 128]
  | n + 1, rcon, k => k.extractLsb' 128 128 :: k.extractLsb' 0 128 :: aesKeys n (gfX 0x1B rcon) (aesNext k rcon)

/-- A block as its 16 bytes, the first in its most significant bits (NIST SP 800-38D). -/
def blockBytes (b : BitVec 128) : List Byte := (List.range 16).map (fun i => b.extractLsb' (120 - 8 * i) 8)
def bytesBlock (bs : List Byte) : BitVec 128 := bs.foldl (fun (x : BitVec 128) b => (x <<< 8) ||| b.setWidth 128) 0

/-- SubBytes and ShiftRows: row r, byte r of each 32-bit column, turns left by r columns. -/
def aesShift (b : BitVec 128) : BitVec 128 :=
  let x := aesSubAll 16 b
  (List.range 4).foldl (fun y r =>
    y ||| (x &&& (0xFF000000FF000000FF000000FF000000#128 >>> (8 * r))).rotateLeft (32 * r)) 0

/-- Each byte of a column replaced by the next one, and each byte twice itself in GF(2^8). -/
def aesTurn (y : BitVec 128) : BitVec 128 :=
  ((y <<< 8) &&& ~~~ 0x000000FF000000FF000000FF000000FF#128) ||| ((y >>> 24) &&& 0x000000FF000000FF000000FF000000FF#128)
def aesTwice (y : BitVec 128) : BitVec 128 :=
  ((y &&& 0x7F7F7F7F7F7F7F7F7F7F7F7F7F7F7F7F#128) <<< 1) ^^^ (((y >>> 7) &&& 0x01010101010101010101010101010101#128) * 0x1B#128)

/-- MixColumns: in each column every byte becomes twice itself, three times the next, and the two after. -/
def aesMix (x : BitVec 128) : BitVec 128 :=
  let y := aesTurn x
  aesTwice (x ^^^ y) ^^^ y ^^^ aesTurn (y ^^^ aesTurn y)

/-- The cipher under n + 1 round keys. -/
def aesRun (ks : List (BitVec 128)) (n : Nat) (b : BitVec 128) : BitVec 128 :=
  let at_ := fun (r : Nat) => ks.getD r 0
  aesShift ((List.range (n - 1)).foldl (fun x r => aesMix (aesShift x) ^^^ at_ (r + 1)) (b ^^^ at_ 0)) ^^^ at_ n

/-- The AES-256 block cipher. -/
def aes256 (k : BitVec 256) (b : BitVec 128) : BitVec 128 := aesRun (aesKeys 7 1 k) 14 b

/-! ### GHASH (NIST SP 800-38D, as R309 names it) -/

def gcmMul (x y : BitVec 128) : BitVec 128 :=
  ((List.range 128).foldl (fun (a : BitVec 128 × BitVec 128) i =>
    (if x.getLsbD (127 - i) then a.1 ^^^ a.2 else a.1,
     (a.2 >>> 1) ^^^ (if a.2.getLsbD 0 then 0xE1000000000000000000000000000000 else 0))) (0, y)).1
def ghash (h : BitVec 128) (xs : List (BitVec 128)) : BitVec 128 := xs.foldl (fun y x => gcmMul (y ^^^ x) h) 0

/-! ### The guard's cipher and tag (R302, R308, R309) -/

/-- What a line is stored under: the counter and minor, whether it is of the metadata tree, the controller and its number (R308). -/
structure LineCtr where
  ctr : Word
  min : Nat
  tree : Bool
  m : Nat
  line : Nat
  deriving DecidableEq, Repr

/-- The block B_J (R308). -/
def LineCtr.block (c : LineCtr) (j : Nat) : BitVec 128 :=
  c.ctr ++ BitVec.ofNat 7 c.min ++ BitVec.ofBool c.tree ++ BitVec.ofNat 3 c.m ++ (0 : BitVec 3) ++ BitVec.ofNat 2 j ++ BitVec.ofNat 48 c.line

/-- The tag key Ktag and the hash key H that K gives (R302). -/
def tagKey (k : BitVec 256) : BitVec 256 := aes256 k (0x7#128 <<< 50) ++ aes256 k (0x7#128 <<< 50 ||| 1)
def hashKey (k : BitVec 256) : BitVec 128 := aes256 (tagKey k) 0

def xorBytes (a b : List Byte) : List Byte := List.zipWith (· ^^^ ·) a b

/-- 64 bytes through the keystream, which is its own inverse (R308). -/
def lineCrypt (k : BitVec 256) (c : LineCtr) (bs : List Byte) : List Byte :=
  xorBytes bs ((List.range 4).flatMap (fun j => blockBytes (aes256 k (c.block j))))

/-- The tag T over the 64 encrypted bytes (R309). -/
def lineTag (k : BitVec 256) (c : LineCtr) (bs : List Byte) : List Byte :=
  let s := ghash (hashKey k) ((List.range 4).map (fun i => bytesBlock ((bs.drop (16 * i)).take 16)) ++ [c.block 0])
  (blockBytes (s ^^^ aes256 (tagKey k) (c.block 0))).take 4

/-! ### The Reed-Solomon code (R272, R273) -/

def rsMul (a b : Byte) : Byte := gfMul 0x1D a b
def rsPow (n : Nat) : Byte := n.repeat (gfX 0x1D) 1
/-- 1/a: a to the power 254. -/
def rsInv (a : Byte) : Byte := Nat.repeat (rsMul a) 254 1

/-- The product (x + 1)(x + α)(x + α²)(x + α³), highest power first. -/
def rsGen : List Byte :=
  (List.range 4).foldl (fun g i => List.zipWith (· ^^^ ·) (g ++ [0]) (0 :: g.map (rsMul (rsPow i)))) [1]

/-- The four check symbols of 68 bytes: the remainder of the division by g(x) (R272). -/
def rsCheck (bs : List Byte) : List Byte :=
  bs.foldl (fun r b =>
    let q := r.headD 0 ^^^ b
    List.zipWith (· ^^^ ·) (r.tail ++ [0]) (rsGen.tail.map (rsMul q))) [0, 0, 0, 0]

/-- C(α^i) of a stored line. -/
def rsSyndrome (bs : List Byte) (i : Nat) : Byte := bs.foldl (fun x b => rsMul x (rsPow i) ^^^ b) 0

/-- The error value at byte i alone, and at bytes i and j, that explains the syndromes. -/
def rsOne (s : List Byte) (i : Nat) : Option (List (Nat × Byte)) :=
  let at_ := fun (k : Nat) => s.getD k 0
  let x := rsPow (71 - i)
  if at_ 1 = rsMul (at_ 0) x ∧ at_ 2 = rsMul (at_ 1) x ∧ at_ 3 = rsMul (at_ 2) x then some [(i, at_ 0)] else none
def rsTwo (s : List Byte) (i j : Nat) : Option (List (Nat × Byte)) :=
  let at_ := fun (k : Nat) => s.getD k 0
  let x := rsPow (71 - i)
  let y := rsPow (71 - j)
  let v := rsMul (at_ 1 ^^^ rsMul (at_ 0) y) (rsInv (x ^^^ y))
  let w := at_ 0 ^^^ v
  let e := fun (k : Nat) => rsMul v (rsPow (k * (71 - i))) ^^^ rsMul w (rsPow (k * (71 - j)))
  if at_ 2 = e 2 ∧ at_ 3 = e 3 then some [(i, v), (j, w)] else none

/-- The bytes in error of a line with one or two symbols in error; none where no two symbols explain it (R273). -/
def rsErrors (bs : List Byte) : Option (List (Nat × Byte)) :=
  let s := (List.range 4).map (rsSyndrome bs)
  if s = [0, 0, 0, 0] then some []
  else match (List.range 72).findSome? (rsOne s) with
    | some e => some e
    | none => (List.range 72).findSome? (fun i => (List.range i).findSome? (rsTwo s i))

/-- Bytes of a line changed by the values given. -/
def xorAt (bs : List Byte) (e : List (Nat × Byte)) : List Byte :=
  e.foldl (fun b (p : Nat × Byte) => b.set p.1 (b.getD p.1 0 ^^^ p.2)) bs

/-! ### Stored lines -/

/-- The 72 bytes stored for 64 bytes of content, with the poison code where `pois` (R271, R309). -/
def lineStored (k : BitVec 256) (c : LineCtr) (plain : List Byte) (pois : Bool) : List Byte :=
  let bs := lineCrypt k c plain
  let t := (lineTag k c bs).map (fun b => if pois then ~~~ b else b)
  bs ++ t ++ rsCheck (bs ++ t)

/-- What a line read from the devices amounts to (R273, R309, R310): uncorrectable; corrected, with the bytes to write
back; its content; whether its tag is good, and whether it is then its poison code. -/
structure LineRead where
  ue : Bool
  ce : Bool
  line : List Byte
  plain : List Byte
  tagOk : Bool
  pois : Bool
  deriving DecidableEq, Repr

def lineRead (k : BitVec 256) (c : LineCtr) (bs : List Byte) : LineRead :=
  let e := rsErrors bs
  let line := xorAt bs (e.getD [])
  let t := lineTag k c (line.take 64)
  let got := (line.drop 64).take 4
  let clean := got == t
  let code := got == t.map (fun b => ~~~ b)
  { ue := e.isNone, ce := e.any (fun l => !l.isEmpty), line := line, plain := lineCrypt k c (line.take 64)
    tagOk := clean || code, pois := code }

end Sys2Proof.Machine
end

