-- ==== Sys2Proof/Machine/Crypto.lean ====
section
/-! DEFINITION. The published codes that streams, keys, links, sessions and tokens are protected by: AES decryption, AES-128, CBC,
GCM and key wrap, SHA-384, HMAC, key derivation, and ECDSA on P-384 (R326, R327, R357, R382, R383, R459, R554, R581,
R639, R640, R681). -/

namespace Sys2Proof.Machine
open Sys2Proof

/-! ### AES (FIPS 197) -/

/-- The inverse of the S-box, byte i at bits 8i + 7 : 8i. -/
def aesUnbox : Nat :=
  0x7D0C2155631469E126D677BA7E042B17619953833CBBEBC8B0F52AAE4D3BE0A0EF9CC9939F7AE52D0D4AB519A97F51605FEC8027591012B131C7078833A8DD1FF45ACD78FEC0DB9A2079D2C64B3E56FC1BBE18AA0E62B76F89C5291D711AF1476EDF751CE837F9E28535ADE72274AC9673E6B4F0CECFF297EADC674F4111913A6B8A130103BDAFC1020F3FCA8F1E2CD00645B3B80558E4F70AD3BC8C00ABD890849D8DA75746155EDAB9EDFD5048706C92B6655DCC5CA4D41698688664F6F87225D18B6D49A25B76B224D92866A12E084EC3FA420B954CEE3D23C2A632947B54CBE9DEC444438E3487FF2F9B8239E37CFBD7F3819EA340BF38A53630D56A0952

/-- The inverses of SubBytes with ShiftRows and of MixColumns. -/
def aesUnshift (x : BitVec 128) : BitVec 128 :=
  let y := (List.range 4).foldl (fun y r =>
    y ||| (x &&& (0xFF000000FF000000FF000000FF000000#128 >>> (8 * r))).rotateRight (32 * r)) 0
  BitVec.ofNat 128 ((List.range 16).foldl (fun a i => a + (aesUnbox >>> (8 * (y.toNat >>> (8 * i) % 256)) % 256) <<< (8 * i)) 0)
def aesUnmix (x : BitVec 128) : BitVec 128 := aesMix (x ^^^ aesTwice (aesTwice (x ^^^ aesTurn (aesTurn x))))

/-- The inverse cipher under n + 1 round keys. -/
def aesUnrun (ks : List (BitVec 128)) (n : Nat) (b : BitVec 128) : BitVec 128 :=
  let at_ := fun (r : Nat) => ks.getD r 0
  aesUnshift ((List.range (n - 1)).foldl (fun x r => aesUnmix (aesUnshift x ^^^ at_ (n - 1 - r))) (b ^^^ at_ n)) ^^^ at_ 0
def aes256Inv (k : BitVec 256) (b : BitVec 128) : BitVec 128 := aesUnrun (aesKeys 7 1 k) 14 b

/-- The 11 round keys of AES-128. -/
def aes128Keys : Nat → Byte → BitVec 128 → List (BitVec 128)
  | 0, _, k => [k]
  | n + 1, rcon, k =>
    let at_ := fun (i : Nat) => k.extractLsb' (96 - 32 * i) 32
    let a0 := at_ 0 ^^^ aesSubAll 4 ((at_ 3).rotateLeft 8) ^^^ (rcon ++ (0 : BitVec 24))
    let a1 := at_ 1 ^^^ a0
    let a2 := at_ 2 ^^^ a1
    k :: aes128Keys n (gfX 0x1B rcon) (a0 ++ a1 ++ a2 ++ (at_ 3 ^^^ a2))
def aes128Inv (k b : BitVec 128) : BitVec 128 := aesUnrun (aes128Keys 10 1 k) 10 b

/-- A key from its bytes, the first in the most significant bits (R681). -/
def keyOf (bs : List Byte) : BitVec 256 := bs.foldl (fun (x : BitVec 256) b => (x <<< 8) ||| b.setWidth 256) 0

/-- AES-128-CBC decryption from a chain value on (R459). -/
def cbcOpen (k : BitVec 128) : Nat → List Byte → List Byte → List Byte
  | 0, _, _ => []
  | n + 1, chain, bs =>
    let c := bs.take 16
    xorBytes (blockBytes (aes128Inv k (bytesBlock c))) chain ++ cbcOpen k n c (bs.drop 16)

/-! ### AES-256-GCM (NIST SP 800-38D), with a 96-bit IV and a 128-bit tag -/

/-- Blocks of 16 bytes, the last one filled with zeros. -/
def gcmBlocks (bs : List Byte) : List (BitVec 128) :=
  (List.range ((bs.length + 15) / 16)).map (fun i =>
    let x := (bs.drop (16 * i)).take 16
    bytesBlock (x ++ List.replicate (16 - x.length) 0))
def gcmCtr (k : BitVec 256) (iv : BitVec 96) (bs : List Byte) : List Byte :=
  xorBytes bs ((List.range ((bs.length + 15) / 16)).flatMap (fun i => blockBytes (aes256 k (iv ++ BitVec.ofNat 32 (i + 2)))))
def gcmTag (k : BitVec 256) (iv : BitVec 96) (aad ct : List Byte) : List Byte :=
  let s := ghash (aes256 k 0) (gcmBlocks aad ++ gcmBlocks ct ++ [BitVec.ofNat 64 (8 * aad.length) ++ BitVec.ofNat 64 (8 * ct.length)])
  blockBytes (s ^^^ aes256 k (iv ++ (1 : BitVec 32)))
/-- Ciphertext and tag; and the plaintext, where the tag is good. -/
def gcmSeal (k : BitVec 256) (iv : BitVec 96) (aad pt : List Byte) : List Byte :=
  let ct := gcmCtr k iv pt
  ct ++ gcmTag k iv aad ct
def gcmOpen (k : BitVec 256) (iv : BitVec 96) (aad bs : List Byte) : Option (List Byte) :=
  let ct := bs.take (bs.length - 16)
  if gcmTag k iv aad ct = bs.drop (bs.length - 16) then some (gcmCtr k iv ct) else none

/-! ### AES key wrap (KW of NIST SP 800-38F) -/

def kwInit : Word := 0xA6A6A6A6A6A6A6A6
/-- Step t, counted from 1, over the register A and the semiblocks in turn; and its inverse. -/
def kwStep (k : BitVec 256) (x : Word × List Word) (t : Nat) : Word × List Word :=
  let b := aes256 k (x.1 ++ x.2.headD 0)
  (b.extractLsb' 64 64 ^^^ BitVec.ofNat 64 t, x.2.tail ++ [b.extractLsb' 0 64])
def kwBack (k : BitVec 256) (x : Word × List Word) (t : Nat) : Word × List Word :=
  let b := aes256Inv k ((x.1 ^^^ BitVec.ofNat 64 t) ++ x.2.getLastD 0)
  (b.extractLsb' 64 64, b.extractLsb' 0 64 :: x.2.dropLast)
/-- A word whose bytes stand in memory order as a semiblock, and back. -/
def wordSwap (w : Word) : Word := BitVec.ofNat 64 (beNat (leBytes 8 w.toNat))
/-- The words of a wrapped key, one more than the key has; and the key a slot's words unwrap to, where their integrity check
passes (R554, R681). -/
def kwWrap (k : BitVec 256) (ws : List Word) : List Word :=
  let x := (List.range (6 * ws.length)).foldl (fun x t => kwStep k x (t + 1)) (kwInit, ws.map wordSwap)
  (x.1 :: x.2).map wordSwap
def kwUnwrap (k : BitVec 256) (ws : List Word) : Option (List Word) :=
  let n := ws.length - 1
  let x := (List.range (6 * n)).foldl (fun x t => kwBack k x (6 * n - t)) (wordSwap (ws.headD 0), ws.tail.map wordSwap)
  if x.1 = kwInit then some (x.2.map wordSwap) else none

/-! ### SHA-384 (FIPS 180-4) and HMAC (FIPS 198-1) -/

/-- The 80 constants, constant i at bits 64i + 63 : 64i. -/
def shaK : Nat :=
  0x6C44198C4A4758175FCB6FAB3AD6FAEC597F299CFC657E2A4CC5D4BECB3E42B6431D67C49C100D4C3C9EBE0A15C9BEBC32CAAB7B40C7249328DB77F523047D841B710B35131C471B113F9804BEF90DAE0A637DC5A2C898A606F067AA72176FBAF57D4F7FEE6ED178EADA7DD6CDE0EB1ED186B8C721C0C207CA273ECEEA26619CC67178F2E372532BBEF9A3F7B2C67915A4506CEBDE82BDE990BEFFFA23631E288CC702081A6439EC84C87814A1F0AB7278A5636F43172F60748F82EE5DEFB2FC682E6FF3D6B2B8A35B9CCA4F7763E3734ED8AA4AE3418ACB391C0CB3C5C95A6334B0BCB5E19B48A82748774CDF8EEB991E376C085141AB5319A4C116B8D2D0C8106AA07032BBD1B8F40E35855771202AD69906245565A910D192E819D6EF5218C76C51A30654BE30C24B8B70D0F89791A81A664BBC423001A2BFE8A14CF1036492722C851482353B81C2C92E47EDAEE6766A0ABB3C77B2A8650A73548BAF63DE53380D139D95B3DF4D2C6DFC5AC42AED2E1B21385C26C92627B70A8546D22FFC142929670A0E6E7006CA6351E003826FD5A79147930AA725C6E00BF33DA88FC2BF597FC7BEEF0EE4B00327C898FB213FA831C66D2DB43210983E5152EE66DFAB76F988DA831153B55CB0A9DCBD41FBD44A7484AA6EA6E4832DE92C6F592B0275240CA1CC77AC9C650FC19DC68B8CD5B5EFBE4786384F25E3E49B69C19EF14AD2C19BF174CF6926949BDC06A725C7123580DEB1FE3B1696B172BE5D74F27B896F550C7DC3D5FFB4E2243185BE4EE4B28C12835B0145706FBED807AA98A3030242AB1C5ED5DA6D8118923F82A4AF194F9B59F111F1B605D0193956C25BF348B538E9B5DBA58189DBBCB5C0FBCFEC4D3B2F7137449123EF65CD428A2F98D728AE22

/-- The initial hash value. -/
def shaInit : List Word :=
  [0xCBBB9D5DC1059ED8, 0x629A292A367CD507, 0x9159015A3070DD17, 0x152FECD8F70E5939,
   0x67332667FFC00B31, 0x8EB44A8768581511, 0xDB0C2E0D64F98FA7, 0x47B5481DBEFA4FA4]

/-- One round over the eight working variables and the next sixteen words of the message schedule. -/
def shaRound (x : List Word × List Word) (t : Nat) : List Word × List Word :=
  let v := fun (i : Nat) => x.1.getD i 0
  let w := fun (i : Nat) => x.2.getD i 0
  let e := v 4
  let a := v 0
  let t1 := v 7 + (e.rotateRight 14 ^^^ e.rotateRight 18 ^^^ e.rotateRight 41) + ((e &&& v 5) ^^^ (~~~ e &&& v 6)) +
    BitVec.ofNat 64 (shaK >>> (64 * t)) + w 0
  let t2 := (a.rotateRight 28 ^^^ a.rotateRight 34 ^^^ a.rotateRight 39) + ((a &&& v 1) ^^^ (a &&& v 2) ^^^ (v 1 &&& v 2))
  let s0 := (w 1).rotateRight 1 ^^^ (w 1).rotateRight 8 ^^^ (w 1 >>> 7)
  let s1 := (w 14).rotateRight 19 ^^^ (w 14).rotateRight 61 ^^^ (w 14 >>> 6)
  ([t1 + t2, a, v 1, v 2, v 3 + t1, e, v 5, v 6], x.2.tail ++ [s1 + w 9 + s0 + w 0])

/-- One 128-byte block. -/
def shaBlock (h : List Word) (bs : List Byte) : List Word :=
  let ws := (List.range 16).map (fun i => wordSwap (BitVec.ofNat 64 (leNat ((bs.drop (8 * i)).take 8))))
  List.zipWith (· + ·) h ((List.range 80).foldl shaRound (h, ws)).1

/-- SHA-384 of a message, 48 bytes. -/
def sha384 (msg : List Byte) : List Byte :=
  let n := msg.length
  let m := msg ++ [0x80] ++ List.replicate ((239 - n % 128) % 128) 0 ++ (leBytes 16 (8 * n)).reverse
  let h := (List.range (m.length / 128)).foldl (fun h i => shaBlock h ((m.drop (128 * i)).take 128)) shaInit
  ((h.take 6).flatMap (fun w => (leBytes 8 w.toNat).reverse))

/-- HMAC-SHA-384 of a message under a key. -/
def hmac (key msg : List Byte) : List Byte :=
  let k0 := if 128 < key.length then sha384 key else key
  let k := k0 ++ List.replicate (128 - k0.length) 0
  sha384 (k.map (· ^^^ 0x5C) ++ sha384 (k.map (· ^^^ 0x36) ++ msg))

/-- The bytes of an ASCII string. -/
def ascii (t : String) : List Byte := t.toList.map (fun c => BitVec.ofNat 8 c.toNat)

/-- n bytes of the counter-mode key derivation of NIST SP 800-108r1 with HMAC-SHA-384 (R326). -/
def kdf (key : List Byte) (label : String) (context : List Byte) (n : Nat) : List Byte :=
  let be4 := fun (x : Nat) => (leBytes 4 x).reverse
  ((List.range ((n + 47) / 48)).flatMap (fun i => hmac key (be4 (i + 1) ++ ascii label ++ [0] ++ context ++ be4 (8 * n)))).take n

/-! ### ECDSA on curve P-384 (FIPS 186-5) -/

def ecP : Nat := 2 ^ 384 - 2 ^ 128 - 2 ^ 96 + 2 ^ 32 - 1
def ecN : Nat := 0xffffffffffffffffffffffffffffffffffffffffffffffffc7634d81f4372ddf581a0db248b0a77aecec196accc52973
def ecB : Nat := 0xb3312fa7e23ee7e4988e056be3f82d19181d9c6efe8141120314088f5013875ac656398d8a2ed19d2a85c8edd3ec2aef
def ecGx : Nat := 0xaa87ca22be8b05378eb1c71ef320ad746e1d3b628ba79b9859f741e082542a385502f25dbf55296c3a545e3872760ab7
def ecGy : Nat := 0x3617de4a96262c6f5d9e98bf9292dc29f8f41dbd289a147ce9da3113b5f0b8c00a60b1ce1d7e819d7a431d7c90ea0e5f

/-- a to the power e, modulo m, by the 384 bits of e. -/
def powMod (m a e : Nat) : Nat :=
  (List.range 384).foldl (fun x i => let y := x * x % m; if nbit e (383 - i) then y * a % m else y) (1 % m)

/-- A point in Jacobian coordinates; z = 0 is the point at infinity. -/
structure EcPoint where
  x : Nat
  y : Nat
  z : Nat
  deriving DecidableEq, Repr

def ecSub (a b : Nat) : Nat := (a + (ecP - b % ecP)) % ecP

def ecDouble (p : EcPoint) : EcPoint :=
  let d := p.z * p.z % ecP
  let g := p.y * p.y % ecP
  let b := p.x * g % ecP
  let a := 3 * (ecSub p.x d * (p.x + d) % ecP) % ecP
  let x := ecSub (a * a % ecP) (8 * b % ecP)
  { x := x, y := ecSub (a * ecSub (4 * b % ecP) x % ecP) (8 * (g * g % ecP) % ecP)
    z := 2 * (p.y * p.z % ecP) % ecP }

def ecAdd (p q : EcPoint) : EcPoint :=
  if p.z = 0 then q
  else if q.z = 0 then p
  else
    let pz := p.z * p.z % ecP
    let qz := q.z * q.z % ecP
    let u := p.x * qz % ecP
    let h := ecSub (q.x * pz % ecP) u
    let v := p.y * (q.z * qz % ecP) % ecP
    let r := ecSub (q.y * (p.z * pz % ecP) % ecP) v
    if h = 0 then (if r = 0 then ecDouble p else { x := 1, y := 1, z := 0 })
    else
      let hh := h * h % ecP
      let hhh := h * hh % ecP
      let w := u * hh % ecP
      let x := ecSub (r * r % ecP) ((hhh + 2 * w) % ecP)
      { x := x, y := ecSub (r * ecSub w x % ecP) (v * hhh % ecP), z := p.z * q.z % ecP * h % ecP }

def ecMul (k : Nat) (p : EcPoint) : EcPoint :=
  (List.range 384).foldl (fun a i => let b := ecDouble a; if nbit k (383 - i) then ecAdd b p else b) { x := 1, y := 1, z := 0 }

/-- Whether (r, s) is a signature over SHA-384 of the message under Q, an uncompressed SEC1 point of 97 bytes (R383, R581). -/
def ecdsaOk (q msg : List Byte) (r s : Nat) : Bool :=
  let x := beNat ((q.drop 1).take 48)
  let y := beNat ((q.drop 49).take 48)
  let onCurve := decide (x < ecP) && decide (y < ecP) && y * y % ecP == ecSub ((x * x % ecP * x + ecB) % ecP) (3 * x)
  if q.length = 97 ∧ q.headD 0 = 4 ∧ onCurve = true ∧ 0 < r ∧ r < ecN ∧ 0 < s ∧ s < ecN then
    let w := powMod ecN s (ecN - 2)
    let u := beNat (sha384 msg) * w % ecN
    let p := ecAdd (ecMul u { x := ecGx, y := ecGy, z := 1 }) (ecMul (r * w % ecN) { x := x, y := y, z := 1 })
    let zi := powMod ecP p.z (ecP - 2)
    p.z != 0 && p.x * (zi * zi % ecP) % ecP % ecN == r
  else false

end Sys2Proof.Machine
end

