-- ==== Sys2Proof/Config.lean ====
section
/-! DEFINITION. What an implementation or the world fixes: the part's grade, content that follows from the routing graph, and free values. -/

namespace Sys2Proof.Config
open Sys2Proof

/-- A value the spec leaves open: the n-th one taken (log entry 5). -/
opaque freeWord : Nat → Word

/-- The speed grade, 1 to 3, less 1 (R1 to R3). -/
opaque gradeLess1 : Fin 3
/-- The speed grade (R3): no other can be ordered. -/
def grade : Nat := gradeLess1.val + 1
theorem grade_range : 1 ≤ grade ∧ grade ≤ 3 := by unfold grade; omega

/-- The engine clock limit of a grade in kHz (R3). -/
def eclkLimitKhz : Nat := if grade = 1 then 900000 else if grade = 2 then 1000000 else 1100000

/-- The global clock limit of a grade in kHz (R65, R89). -/
def gclkLimitKhz : Nat := if grade = 1 then 800000 else if grade = 2 then 900000 else 1000000

/-- The serial number of the part, from Idvas fuse words (R649). -/
opaque serial : Word

/-- The version of the ROM firmware, as bytes of text (R649). -/
opaque romVersion : List Byte

/-- The frequency in kHz of a reference that nothing has measured yet (R476, R479). -/
opaque unmeasuredKhz : Nat → Nat

/-- The bits of word i of a frame of column col that hold ENC select fields in routing-graph order (R388, R389). -/
opaque blankRoute : Nat → Nat → Word

/-- Whether word i of a frame of column col, all of it selects and seam fields in routing-graph order, holds a value R87 or
R417 rejects. -/
opaque routeIllegal : Nat → Nat → Word → Bool

/-- The regional clock of its panel that stream st of quad q names as its clock (R343); the spec places the name nowhere. -/
opaque streamClock : Nat → Nat → Fin 16

/-- The device unique secret, Idvas fuse words 64 to 67, the lowest first (R553, R556). -/
opaque dus : Fin 4 → Word

/-- The tag of a frame of the boot link, which has no key: the spec gives it no rule (R327, R367; log entry 11). -/
opaque bootTag : List Byte → BitVec 128

/-- The bytes of frame (col, row) of P1, 368 words, that the translator builds from a legacy design's frames, given as
address and byte pairs in one list (R447 to R456). -/
opaque legacyFrame : List (Nat × Byte) → Nat → Nat → List Word

/-- Where the translator places memory m of a legacy design, if the design has it: its bank less 96, and its first word (R452). -/
opaque memPlace : List (Nat × Byte) → Nat → Option (Fin 96 × Fin 7681)
/-- The initial contents of word w of memory m, at the 36-bit width (R452). -/
opaque memInit : List (Nat × Byte) → Nat → Nat → BitVec 36
/-- The PLLs of F0 that the translator assigns to a legacy design's clocks, with their CLK_PLLCFG and CLK_PLLODIV (R451). -/
opaque legacyPlls : List (Nat × Byte) → List (Fin 8 × Word × Word)

/-! The MK2140 itself, which the spec names but does not describe (R449; log entry 57): what it holds after a history of clock
edges, newest first, each a clock net and the levels at its 288 inputs. The first argument is the design. -/

/-- Flip-flop k of logic block (x, y). -/
opaque mkFlip : List (Nat × Byte) → List (Nat × BitVec 288) → Nat → Nat → Nat → Bool
/-- The output of port p of memory m. -/
opaque mkMem : List (Nat × Byte) → List (Nat × BitVec 288) → Nat → Nat → BitVec 36
/-- The product of multiplier i, in its register mode. -/
opaque mkProduct : List (Nat × Byte) → List (Nat × BitVec 288) → Nat → BitVec 36
/-- The level it drives on I/O i and whether it drives it. -/
opaque mkDrive : List (Nat × Byte) → List (Nat × BitVec 288) → Nat → Bool × Bool
/-- The four margin cells of which the translator builds multiplier i (R448, R455). -/
opaque multCells : List (Nat × Byte) → Nat → Vector (Fin 12288) 4

/-- What one clock domain of a legacy design needs (R451, R453): its clock in kHz, its used ports on that clock, the clocks in kHz
of its used ports on other clocks, its memories and multipliers, and whether a PLL can give its clock manager's setting. -/
structure LgDomain where
  khz : Nat
  ports : Nat
  foreign : List Nat
  mems : Nat
  mults : Nat
  pll : Bool
  deriving DecidableEq, Repr, Inhabited

/-- What a legacy design needs (R448 to R456): for each long line the drivers whose enables are constantly active, cells outside the
block area and the reason where these run out, the clock domains, and whether it sets a PCI clamp. -/
structure LgNeeds where
  lines : List Nat
  margin : Nat
  marginClocks : Bool
  domains : List LgDomain
  clamp : Bool
  deriving DecidableEq, Repr, Inhabited

/-- What a legacy design needs; the spec does not give the MK2140's frame contents (log entry 57). -/
opaque legacyNeeds : List (Nat × Byte) → LgNeeds

end Sys2Proof.Config
end

