-- ==== Sys2Proof/Machine/State.lean ====
section
/-! DEFINITION. The state of the VX9: every register, memory, queue and mode the spec gives it, as plain data, and the
state right after the power-on reset. Tables over many units are sparse (log entry 3): a unit that is not listed is
at its default, which is its state after reset. -/

namespace Sys2Proof.Machine
open Sys2Proof

/-- The faults of the block. No command of the table ends in one: errors of the VX9 are packets, flags and log
entries, which are state. Safe: a machine that never faults stops no run. -/
inductive Fault where
  /-- Raised by no meaning; the outcome type needs a reason type. Safe. -/
  | none
  deriving DecidableEq, Repr

/-- The refusals of the block. -/
inductive Refusal where
  /-- Raised only by an arm of exec whose command has no meaning yet. Safe: the run stops there. -/
  | notModelled (mnemonic : String)
  deriving DecidableEq, Repr




/-! ## Word cells, regional clocks and the governor -/

/-- A word cell's registers, flags and outputs (R42 to R44, R57, R64). Slots and control word are in its
configuration frame. Bit-mode flip-flops are kept as their difference from SRVAL (log entry 3). -/
structure Cell where
  a : Word := 0
  b : Word := 0
  c : Word := 0
  d : Word := 0
  z : Bool := false
  cy : Bool := false
  n : Bool := false
  v : Bool := false
  wo0 : Word := 0
  wo1 : Word := 0
  bo : BitVec 4 := 0
  ctx : Nat := 0
  ffx : BitVec 16 := 0
  co : Bool := false
  eo : Bool := false
  deriving DecidableEq, Repr

/-- A regional clock's multiplexer, gate and reset tree (R94 to R104). Its configuration word is in the panel's
clock frame. `edges` counts its divided edges since configuration, in thousandths (R98, log entry 4). -/
structure Rclk where
  swCnt : Nat := 0
  rst : Bool := true
  rrst : Bool := false
  gated : Bool := false
  pend : Option Nat := none
  queued : Option Nat := none
  src : Nat := 0
  fclkCnt : Nat := 0
  forced : Bool := false
  edges : Nat := 0
  deriving DecidableEq, Repr

/-- The limiter of one fabric die (R73): `act` the energy its activity counters give for this microsecond, in hundredths of
a picojoule at 0.85 V (R71), `est` the last estimate in units of 10 nW, `removed` the positions swallowed in each
group of 8 divided edges (R98). -/
structure DieGov where
  act : Nat := 0
  removed : Nat := 0
  est : Nat := 0
  limit : Nat := 120
  hyst : Nat := 2
  overUs : Nat := 0
  thr : Nat := 0
  thrUs : Nat := 0
  throttled : Bool := false
  deriving DecidableEq, Repr

/-- The governor's objects 0x3400 and 0x3401 and its four limiters (R73 to R78). -/
structure Gov where
  ctl : Word := 0x000001E00A040000
  stat : Word := 0
  dies : Tbl DieGov := []
  deriving DecidableEq, Repr

/-! ## Signal engines -/

/-- A 64-bit lane, S register or data-memory word: value, poison mark and 4-bit pending mask (R111, R171). -/
structure Lane where
  val : Word := 0
  pois : Bool := false
  pend : BitVec 4 := 0
  deriving DecidableEq, Repr

/-- Where a result in flight lands: V (16 × 4 lanes); ACC as MAC and FTAP see it, as ARD, ARDC and AXFR see it, or
both (16 lanes × 3 slices each); F; S (R138). -/
inductive RegFile where
  | v | accm | accv | accb | f | s
  deriving DecidableEq, Repr

/-- What an instruction in flight does when it lands (R137 to R140). -/
inductive Act where
  /-- Writes lanes (index within the file, value). -/
  | lanes (file : RegFile) (ws : List (Nat × Lane))
  /-- Writes special register n whole. -/
  | spec (n : Nat) (v : Word)
  /-- Writes the fields of special register n that the mask names (R116, R131); `drop` for AGADD, which discards the generator's
  run-ahead queue (R169). -/
  | part (n : Nat) (mask v : Word) (drop : Bool)
  /-- A quad store's observation, seen by reads of BXD from here on (R126, R138). -/
  | obs (fmt : Nat) (ws : List Lane)
  /-- Clears W1C bits of special register n. -/
  | clear (n : Nat) (v : Word)
  /-- Sets flags of XF. -/
  | xf (bits : Word)
  /-- Reads memory for a load of kind lk at addr through generator ag, post-modified or not; the data lands later. -/
  | load (lk addr vl ag : Nat) (pm : Bool) (flips : List (BitVec 80))
  /-- Writes memory. `obs` 0 none, 1 observed as CF32, 2 observed as CI16 (R126). -/
  | store (addr : Nat) (ws : List Lane) (obs : Nat)
  /-- FTAP's window move: lanes 0 to 2 of V15, and lane 3 from F (R134). -/
  | ftap (l0 l1 l2 : Lane)
  deriving DecidableEq, Repr

/-- A result in flight and the issue cycle in which it lands. -/
structure Flight where
  due : Nat
  rank : Nat
  act : Act
  deriving DecidableEq, Repr

/-- A verdict-buffer entry: a word or quad store (R172). -/
structure VbEntry where
  addr : Nat
  ws : List Lane
  obs : Nat
  deriving DecidableEq, Repr

/-- A word held by a run-ahead queue (R167). -/
structure RaEntry where
  addr : Nat
  lk : Nat
  ws : List Lane
  deriving DecidableEq, Repr

/-- An XFER outstanding (R151, R152): bytes address, first local word, length in words, direction, class, verdict ID of
an early one, words whose response has come, whether a packet drew an error, the verdict its last unit carried (1 GOOD, 2 BAD), and its packets
so far: number, first word of the address, words. -/
structure Xfer where
  addr : Nat
  laddr : Nat
  len : Nat
  write : Bool
  cls : Nat
  early : Option Nat
  got : Nat := 0
  err : Bool := false
  verd : Nat := 0
  asked : List (Nat × Nat × Nat) := []
  deriving DecidableEq, Repr

/-- The run states of R141. -/
inductive EngSt where
  | reset | halted | running | waiting
  deriving DecidableEq, Repr

/-- A signal engine (R105 to R183, R586 to R604). -/
structure Engine where
  v : Tbl Lane := []
  accm : Tbl Lane := []
  accv : Tbl Lane := []
  f : Lane := {}
  s : Tbl Lane := []
  ag : Tbl Word := []
  agx : Tbl Word := []
  twc : Word := 0xC000000000000000
  xf : Word := 0
  bxd : Word := 0x000000000000FF0F
  lp0 : Word := 0
  lp1 : Word := 0
  inner : Bool := false
  ictl : Word := 0
  ipend : Word := 0
  irp : Word := 0
  epc : Word := 0
  ecause : Word := 0
  erpt : Word := 0
  bad : BitVec 4 := 0
  ag7s : Word := 0
  scr : Word := 0
  dm : Tbl Lane := []
  pm : Tbl PWord := []
  pc : Nat := 0
  st : EngSt := .reset
  hcause : Nat := 0
  lastrst : Nat := 0
  ctl : Word := 0
  wdt : Word := 0x000000000000000A
  wdFirst : Bool := false
  cyc : Nat := 0
  flights : List Flight := []
  slots : Nat := 0
  repLeft : Nat := 0
  repSsk : Nat := 0
  repFirst : Bool := false
  dsLeft : Nat := 0
  dsNext : Nat := 0
  halting : Bool := false
  lastKind : Tbl Nat := []
  raq : Tbl (List RaEntry) := []
  vb : List VbEntry := []
  vids : BitVec 4 := 0
  xfers : List Xfer := []
  vbad : BitVec 4 := 0
  point : Bool := false
  retPath : Bool := false
  carried : List Bool := []
  stepping : Bool := false
  skipIbp : Bool := false
  txf : Bool := false
  rxf : Bool := false
  tx : Word := 0
  rx : Word := 0
  ibp : Tbl Word := []
  dbp : Tbl Word := []
  xt : Word := 0
  deriving DecidableEq, Repr

/-! ## The network, wrappers, clocks, power, reset -/

/-- The request commands of R236. -/
inductive NCmd where
  | rd | rde | wr | wri1 | wri2 | wri4 | wri8 | fadd | swap | rsvrd | cwr
  deriving DecidableEq, Repr

/-- A request: its command, header, write data, the bits its reads find in error, the unit and slot it goes to. `id` is its
injection's number; `buf` says that a port holds it in its buffer (R69). -/
structure Req where
  cmd : NCmd
  h : Hdr
  data : List PWord
  flips : List (BitVec 80)
  unit : Nat := 0
  slot : Nat := 0
  src : List (BitVec 80) := []
  id : Nat := 0
  buf : Bool := false
  deriving DecidableEq, Repr

/-- The response commands of R236. -/
inductive RKind where
  | rdr | wra | atr | err
  deriving DecidableEq, Repr

/-- A response on its way: requester, tag, kind, error code or ATR status, data, whether its words carry the
verdict-pending mark, the request's class, address, data units and number, the router and slot it comes from, and whether
the requester's own interface gave it (R237, R238). -/
structure Resp where
  init : Nat
  tag : Nat
  kind : RKind
  code : Nat := 0
  data : List PWord := []
  pend : Bool := false
  cls : Nat := 0
  addr : Nat := 0
  len : Nat := 0
  own : Bool := false
  id : Nat := 0
  place : Nat := 0
  deriving DecidableEq, Repr

/-- A request injected whose response has not reached its requester (R240); `len` its data units, 0 for a short one. -/
structure Outst where
  init : Nat
  tag : Nat
  cls : Nat
  addr : Nat
  len : Nat := 0
  id : Nat := 0
  deriving DecidableEq, Repr

/-- The isolation wrapper of a unit (R37 to R40): running, draining, stopped, or enabled and not yet ready; `off` that the
unit itself was disabled, so that a wake of its domain does not open it. -/
inductive WrapSt where
  | running | draining | stopped | waking
  deriving DecidableEq, Repr

structure Wrapper where
  st : WrapSt := .running
  discarded : Nat := 0
  enableAfter : Bool := false
  off : Bool := false
  deriving DecidableEq, Repr

/-- The statistics of one initiator at its router (R256, R264 to R268). -/
structure Stats where
  cfg : Word := 0x03E80000001000F0
  lat : Word := 0xFFFF000000000000
  sum : Word := 0
  bytes : Word := 0
  bins : Tbl Nat := []
  window : Nat := 0
  deriving DecidableEq, Repr

/-- A router (R257 to R263): pending and in-force shapes, and the link monitors of R251; `crcAt` lists, for a link, when
its CRC errors of the last millisecond came. -/
structure Router where
  c0 : Word := 0x0000000000002002
  c0F : Word := 0x0000000000002002
  qos : Word := 0x0000000000010408
  qosF : Word := 0x0000000000010408
  porten : Word := 0x00000000000FFFFF
  portenF : Word := 0x00000000000FFFFF
  img : List Word := []
  chg : Word := 0
  hold : Word := 0x00000FA003E80000
  link : Word := 0
  closed : Nat := 0
  stats : Tbl Stats := []
  crcAt : Tbl (List Nat) := []
  deriving DecidableEq, Repr

/-- The network's packets: waiting at an interface, waiting on their way, held at a router, accepted by a unit and not complete, responses
under way, requests outstanding, dead tags, slots in their C0 gap, the number of the next injection, and the hub initiators
whose last read completed with its poison status set (R33). -/
structure Noc where
  iface : List Req := []
  transit : List Req := []
  held : List Req := []
  accepted : List Req := []
  responses : List Resp := []
  outst : List Outst := []
  dead : List (Nat × Nat) := []
  gap : List Nat := []
  seq : Nat := 0
  hubPois : List Nat := []
  deriving DecidableEq, Repr

/-- What a fabric port last took from the network, and what it buffers while its clock's reset tree is asserted
(R66 to R69, R104). -/
structure Port where
  rs : Option Resp := none
  buf : List Resp := []
  deriving DecidableEq, Repr

/-- A PLL of a fabric die (R477 to R485, R506 to R508). `odivSet` holds the dividers last set, which R404 and R485 may hold
raised in `odiv`; `phase` the phase counts of its four global clocks, in thousandths of an edge (R90, log entry 4). -/
structure Pll where
  cfg : Word := 0x207C000000000000
  odiv : Word := 0
  odivSet : Word := 0
  stat : Word := 0
  phase : List Nat := [0, 0, 0, 0]
  deriving DecidableEq, Repr

/-- The operating-point sequencer of a die (R490 to R496). `step` 0 none, 1 up: command sent, 2 up: acknowledged,
3 up: settled and slewing, 4 down: slewing, 5 down: command sent, 6 down: acknowledged. -/
structure Opp where
  reg : Word := 0x0000000000700707
  step : Nat := 0
  goal : Nat := 0
  gov : Option Nat := none
  deriving DecidableEq, Repr

/-- A power domain (R497 to R502, R516): software votes in bits 15:1, the state entered and the state being entered,
a wake latched during entry, and whether the last wake was caused by a vote. -/
structure Dom where
  votes : Nat := 0
  cur : Nat := 0
  into : Nat := 0
  lastsrc : Nat := 0
  depth : Nat := 1
  linger : Nat := 0x64
  latched : Option Nat := none
  replay : Bool := false
  cg : Bool := false
  deriving DecidableEq, Repr

/-- Clock sources (R473 to R489): CLK_REF, nominal frequencies in kHz, CLKOUTs and the source each follows, force and stall registers. `refs` holds
the valid reference codes per die: code, or 32 × (die + 1) + code for die-local ones. -/
structure Clk where
  ref : Word := 0x0007000000000000
  trimmed : Bool := false
  nominal : Tbl Nat := []
  refs : List Nat := []
  plls : Tbl Pll := []
  out0 : Word := 0x0000008C00000000
  out1 : Word := 0x0000008C00000000
  outSel : Tbl Nat := []
  force : Word := 0
  stalls : Tbl Word := []
  deriving DecidableEq, Repr

/-- Power (R490 to R517). -/
structure Pwr where
  avs : Word := 0x00000A0A32013210
  opps : Tbl Opp := []
  doms : Tbl Dom := []
  wake : Word := 0
  deriving DecidableEq, Repr

/-- The reset controller (R518 to R549). Sources and reaches are coded as R520 and RST_CMD.ACTION; `narrow` holds the
PANEL and UNIT resets asserted, each a reach, a kind and an index. -/
structure Rst where
  cause : Word := 0
  state : Word := 0
  asserted : List (Nat × Nat) := []
  active : Bool := false
  covered : List (Nat × Nat) := []
  seen : Nat := 0
  eff : Nat := 0
  stretched : Bool := false
  driving : Bool := false
  pinHigh : Bool := true
  narrow : List (Nat × Nat × Nat) := []
  hubTimes : List Nat := []
  hubLoading : Bool := false
  urgent : Bool := false
  shdnAck : Bool := false
  deriving DecidableEq, Repr

/-- The security engine, fuses and BBRAM (R550 to R573). Fuse words hold their value and their commit bit. -/
structure Sec where
  state : Word := 0
  almcfg : Word := 0x5
  almstat : Word := 0
  bbr : Word := 0
  keyin : List Word := [0, 0, 0, 0]
  fusctl : Word := 0
  fusdata : Word := 0
  fusstat : Word := 0
  fuses : Tbl Word := []
  commit : Tbl Bool := []
  bbram : Tbl Word := []
  memKey : Option (BitVec 256) := none
  links : Tbl (List Word) := []
  tamperLow : Bool := false
  vfuse : Bool := true
  zscope : Nat := 0
  authFails : List Nat := []
  blow : Option (Nat × Word) := none
  drawn : List Byte := []
  deriving DecidableEq, Repr

/-! ## Debug -/

/-- A trace unit (R597, R605). -/
structure Trc where
  reg : Word := 0
  ring : List Word := []
  t0 : Nat := 0
  deriving DecidableEq, Repr

/-- The debug port (R574 to R605): the TAP's instruction and what its data register captured, the DAP's last request, the
challenge, tokens submitted and not decided (each with whether it held the challenge then current), and the DBG_
registers that do not belong to an engine. -/
structure Dbg where
  ctl : Word := 0x0020000000000000
  req : Nat := 0
  xtch : Word := 0
  xtp : Tbl Word := []
  trc : Tbl Trc := []
  ir : Nat := 2
  chal : List Byte := []
  tokens : List (Bool × List Byte) := []
  dapCmd : Nat := 0
  dapAddr : Nat := 0
  dapData : Word := 0
  dapBusy : Bool := false
  dapRes : Nat := 3
  dapPois : Bool := false
  tdo : List Word := []
  cfgBits : List Bool := []
  deriving DecidableEq, Repr

/-! ## Block memory banks -/

/-- An owner: KIND, SEL and MASK of BNK_OWN (R198). -/
structure Owner where
  kind : Nat := 0
  sel : Nat := 0
  mask : Nat := 0
  deriving DecidableEq, Repr

/-- A reservation: its requester (0x10000 is the bank's own fabric) and its word (R196), oldest first in the bank. -/
structure Resv where
  req : Nat
  word : Nat
  deriving DecidableEq, Repr

/-- What a fabric interface last answered: RDATA and RPOIS, and RSTAT (R187). -/
structure FabOut where
  rdata : PWord
  rstat : Nat
  deriving DecidableEq, Repr

/-- The access a fabric interface of a bank took last (R190): which, whether it was a plain write, its word, and that word before it
with its row's valid bit. -/
structure FabLast where
  i : Nat
  write : Bool
  plain : Bool
  word : Nat
  old : PWord
  valid : Bool
  deriving DecidableEq, Repr

/-- A block memory bank (R184 to R227). `next` is the power state a change under way leads to; `prev` the one it left;
`woken` says an access woke it from RET. -/
structure Bank where
  words : Tbl PWord := []
  valid : Tbl Bool := []
  spare : Tbl PWord := []
  cfg : Word := 0x0000041000000110
  imgCfg : Word := 0x0000001000000100
  own : Owner := {}
  target : Owner := {}
  busy : Bool := false
  imgOwn : Owner := {}
  pwr : Word := 0x0000000000000004
  next : Nat := 0
  prev : Nat := 0
  woken : Bool := false
  err : Word := 0
  remap : Tbl Word := []
  scrub : Word := 0x803F640000000000
  scrubPos : Nat := 0
  bist : Word := 0
  buf : Tbl PWord := []
  inBuf : Tbl Bool := []
  bistPos : Nat := 0
  bistFails : List Nat := []
  repair : Word := 0
  resv : List Resv := []
  wbs : List (Nat × PWord) := []
  ceSeen : Bool := false
  outs : Tbl FabOut := []
  last : Option FabLast := none
  deriving DecidableEq, Repr

/-! ## GDDR7 controllers and memory guards -/

/-- The content of a line of external memory: eight words and whether it is poisoned (R310). -/
structure MLine where
  words : List Word
  pois : Bool
  deriving DecidableEq, Repr

/-- A command a controller issues to the devices (R275, R283, R289): a row opened, a 64-byte block read or written with its
data, a bank refreshed. -/
inductive DevCmd where
  | act (bank row : Nat)
  | read (bank block : Nat)
  | write (bank block : Nat) (data : List Byte)
  | refresh (bank : Nat)
  | refreshAll
  deriving DecidableEq, Repr

/-- A request the guard has admitted and not answered: its request, whether an early-data window admitted it, when it came, and
the lines of its group that have arrived. `failed` is the reason a metadata failure gave it; `lost` that early units left
before their metadata line was found lost; `reenc` that it waits for its page. -/
structure GPend where
  req : Req
  early : Bool
  since : Nat := 0
  seen : List Nat := []
  failed : Nat := 0
  lost : Bool := false
  reenc : Bool := false
  deriving DecidableEq, Repr

/-- A line the patrol scrubber found corrected or uncorrectable, whose path it fetches (R311, R317): data line or metadata line. -/
structure Find where
  tree : Bool
  num : Nat
  deriving DecidableEq, Repr

/-- A controller Mm (R293 to R300). `retry` is the retry buffer, `todo` what waits to be issued while it is full, `replay` how many
commands of a replay are not confirmed, `fails` the failed replays in a row (R289); `rows` each bank's open row plus 1,
`dir` and `run` the direction of the bus and how many requests it has served so (R282); `wbs` the corrected lines to be
written back, metadata line j as 2^40 + j (R274). -/
structure Mc where
  cfg : Word := 0
  maps : Tbl Word := []
  ctl : Word := 0x0040100001000000
  stat : Word := 0
  err : Word := 0
  erraddr : Word := 0
  retry : List DevCmd := []
  todo : List DevCmd := []
  replay : Nat := 0
  fails : Nat := 0
  rows : Tbl Nat := []
  dir : Bool := false
  run : Nat := 0
  patrol : Nat := 0
  wbs : List (Nat × List Byte) := []
  refs : Tbl Nat := []
  stopping : Bool := false
  deriving DecidableEq, Repr

/-- A rights window (R334, R335). -/
structure Window where
  range : Word := 0
  rights : Word := 0xFFFFFFFF00000000
  deriving DecidableEq, Repr

/-- A subtree rebuilt (R319): its pages, the level of the line lost, the MAJOR of its counter blocks, and the free value its
nodes' fresh counters start at. -/
structure Rebuilt where
  lo : Nat
  hi : Nat
  level : Nat
  maj : Word
  base : Nat
  deriving DecidableEq, Repr

/-- The guard of a controller (R301 to R335). `key` is its copy of K. Counters as the cache and the memory hold them: MAJOR by
page, MINOR by local line, node counters by metadata line × 8 + slot, the root. `lines` and `metas` are the 72-byte stored
lines of data and of metadata, where written since the guard's initialisation. `rebuilt` lists the rebuilds, newest first. The
cache lists verified metadata lines, most recent first, and whether each is dirty. `finds` is what the scrubber found and
has not recorded. `loose` lists the areas of 256 MiB whose contents a load has left undefined, each a base and the free value
its first word takes (R394). -/
structure Guard where
  key : Option (BitVec 256) := none
  ctl : Word := 0x0000108000000001
  stat : Word := 0
  err : Word := 0
  erraddr : Word := 0
  wins : Tbl Window := []
  root : Tbl Word := []
  nodes : Tbl Word := []
  majors : Tbl Word := []
  minors : Tbl Nat := []
  rebuilt : List Rebuilt := []
  rebuilding : List (Nat × Nat) := []
  dead : List (Nat × Nat) := []
  exhausted : List Nat := []
  reenc : List Nat := []
  cache : List (Nat × Bool) := []
  lines : Tbl (List Byte) := []
  metas : Tbl (List Byte) := []
  finds : List Find := []
  loose : List (Nat × Nat) := []
  pend : List GPend := []
  ueTimes : List Nat := []
  ueArmed : Bool := true
  looks : Nat := 0
  hits : Nat := 0
  winStart : Nat := 0
  deriving DecidableEq, Repr
/-! ## Serial lanes and native links -/

/-- A lane's registers: its configuration and statistics, and its DMA queue (R368 to R375). `stalled` says that
its transmit ring was found empty and waits for KICK; `txPart` and `txBad` are the Ethernet frame being gathered and
whether it has been aborted; `cwBad` counts codewords in a row that could not be corrected (R352). -/
structure LaneReg where
  cfg : Word := 0
  stat : Word := 0
  err : Word := 0
  dqTx : Word := 0
  dqRx : Word := 0
  dqCtl : Word := 0x2000000000000000
  stalled : Bool := false
  txPart : List Byte := []
  txBad : Bool := false
  cwBad : Nat := 0
  deriving DecidableEq, Repr

/-- One direct-path stream of a quad (R342): the beat last received, the transmit frame being gathered, and the beats
discarded while its clock's reset tree is asserted (R343). -/
structure Strm where
  rxData : List Word := []
  rxCtl : BitVec 32 := 0
  rxErr : Bool := false
  txData : List Word := []
  txType : Nat := 0
  txOpen : Bool := false
  txAbort : Bool := false
  sent : List (List Word) := []
  dropped : Nat := 0
  deriving DecidableEq, Repr

/-- A quad's registers and streams (R370, R371). -/
structure Quad where
  ctl : Word := 0
  rclk : Word := 0
  strms : Tbl Strm := []
  deriving DecidableEq, Repr

/-- A frame kept for replay or delivered: sequence number, TYPE, payload (R327, R350). -/
structure NSent where
  seq : Nat
  ftype : Nat
  payload : List Byte
  deriving DecidableEq, Repr

/-- What a link's transmitter has sent, oldest first: a control block by its type byte, or a frame (0), with its value
and bytes. -/
structure LnOut where
  kind : Nat
  val : Nat := 0
  bytes : List Byte := []
  deriving DecidableEq, Repr

/-- The keys and salts of a native link's two directions, transmit and receive (R326). -/
structure LinkKeys where
  txKey : BitVec 256
  rxKey : BitVec 256
  txSalt : BitVec 32
  rxSalt : BitVec 32
  deriving DecidableEq, Repr

/-- A native link or Ethernet port, kept under its lead lane (R348 to R360). `rxNew` is the mask of a
restripe under way; `skip` the SEQ asked for by NAK; `mine`, `round` and `parts` the capability exchange. -/
structure Link where
  txSeq : Nat := 0
  rxSeq : Nat := 0
  keys : Option LinkKeys := none
  replay : List NSent := []
  got : List NSent := []
  sinceAck : Nat := 0
  skip : Option Nat := none
  discards : List Nat := []
  txMask : Nat := 0
  rxLost : Bool := false
  txLost : Bool := false
  rxNew : Option Nat := none
  rxConf : Bool := false
  rxMid : Bool := false
  round : Nat := 0
  mine : List Byte := []
  theirs : List Byte := []
  parts : Tbl (List Byte) := []
  tries : Nat := 0
  resume : Option Nat := none
  probed : Nat := 0
  txSleep : Bool := false
  rxSleep : Bool := false
  opened : Bool := false
  ams : Nat := 0
  txPre : Bool := false
  waiting : List NSent := []
  fromQueue : Bool := false
  out : List LnOut := []
  deriving DecidableEq, Repr

/-! ## Configuration: the loader, panels, the Darner, the legacy design -/

/-- The loader (R376 to R413). `rx` holds the stream as received; `want` its length S once the header is known; `area`
1 on-chip, 2 GDDR7 with `base`; `records` what COMMIT has yet to take and `regs`, `secrets` what it applies after the
frames; `trailer`, `slot` and `waited` the start-up; `reduced` that the dividers of F0 are held (R404); `cold` the cold-start step: 0 none, 1 starter, 2 fallback
starter, 3 main, 4 fallback main; `dir` the boot directory's four offsets; `recs` the panels whose recovery waits,
the first one under way. -/
structure Loader where
  ctl : Word := 0
  stat : Word := 0
  prog : Word := 0
  baste : Word := 0
  pnlRec : Word := 0
  src : Nat := 0
  rx : List Byte := []
  want : Nat := 0
  checked : Bool := false
  waitMem : Bool := false
  area : Nat := 0
  base : Nat := 0
  records : List Word := []
  body : List Word := []
  isolated : Bool := false
  regs : List (Word × Word) := []
  secrets : List (Nat × List Word) := []
  trailer : Word := 0
  took : Bool := false
  slot : Nat := 0
  waited : Bool := false
  cold : Nat := 0
  dir : List Nat := []
  recs : List Nat := []
  reduced : Bool := false
  deriving DecidableEq, Repr

/-- A panel's registers and standing (R414 to R444): `iso` why it is isolated (0 not, 1 load, 2 recovery, 3 HOLD),
`drained` that step 5 of R415 is reached, `seam` that its seams are frozen, `sr`, `we` and `out` the start-up steps
that have run since it was last isolated, `trailer` the trailer its recovery copy holds, and the shift registers of
stopped clocks (R592). -/
structure Panel where
  stat : Word := 0
  ctl : Word := 0
  iso : Nat := 0
  drained : Bool := false
  seam : Bool := false
  out : Bool := false
  sr : Bool := false
  we : Bool := false
  copy : Tbl (List Word) := []
  copyTrailer : Word := 0
  copyBase : Nat := 0
  deriving DecidableEq, Repr

/-- A Darner (R422 to R440): `hard` lists, for bits corrected in the last laps, frame, word, bit, how many laps in a
row and the last of them (R613). -/
structure Darner where
  ctl : Word := 0x8062000000000000
  stat : Word := 0
  err : Word := 0
  log : Word := 0
  hard : List (Nat × Nat × Nat × Nat × Nat) := []
  deriving DecidableEq, Repr

/-- MK2140 compatibility (R446 to R471): the status register of R467, the OPTIONS word, what parts have come, the
frames by address, the TAP's instruction, its boundary and scan registers, CKCODE in force, the bridge mask; whether P1 hosts a
design, the clock edges it has seen, newest first, LGB_I as it last took it, and the PLLs of F0 set for it. -/
structure Legacy where
  stat : Word := 0x600
  opts : Option Nat := none
  device : Bool := false
  iv : Bool := false
  finished : Bool := false
  progLow : Bool := false
  bytes : Nat := 0
  frames : Tbl (List Byte) := []
  ck : Nat := 0
  ir : Nat := 0x0C
  dr : List Word := []
  toNative : Bool := false
  chain : List Byte := []
  marker : Bool := false
  bits : List Bool := []
  raw : List Byte := []
  bridge : List Word := []
  hosted : Bool := false
  edges : List (Nat × BitVec 288) := []
  lgbI : BitVec 288 := 0
  plls : List Nat := []
  deriving DecidableEq, Repr

/-! ## Self-test, faults, the service port -/

/-- An entry of the fault log (R612). -/
structure FaultEnt where
  us : Nat
  cls : Nat
  unit : Nat
  detail : Nat
  deriving DecidableEq, Repr

/-- The fault log, the self-test and the repair (R606 to R628). `began` is when the count of microseconds began; `slice` the
slice under way, `quick` that the quick start checks run, `testAt` when step 4 of a shutdown began; `results` words 1 to 8;
`record` the copy in force; `swaps`, `hardCols` the repair entries gathered since the start; `spares` the failed wires and
their spares (wire × 2 + spare) by crossing × 256 + group; `swapping` the crossings that retrain after a swap; `closed` the
crossings closed; `cols` the column entries in force; `todo` the commit's entries. -/
structure Stest where
  log : List FaultEnt := []
  total : Nat := 0
  mask : Word := 0x00000000001FFFFC
  ctl : Word := 0x0000C8020000001F
  slice : Option Nat := none
  quick : Bool := false
  began : Nat := 0
  testAt : Nat := 0
  results : List Word := [0, 0, 0, 0, 0, 0, 0, 0]
  stat : Word := 0
  record : List Word := []
  swaps : List Word := []
  hardCols : List Word := []
  spares : Tbl (List Nat) := []
  swapping : List Nat := []
  closed : List Nat := []
  cols : List Word := []
  commit : Word := 0
  todo : List Word := []
  deriving DecidableEq, Repr

/-- A segmented transfer (R645): its object, direction, total, the bytes of the value (those received so far, for a write),
how many segments have been received or sent, and for a read how many are acknowledged, for a write how many bytes. -/
structure Seg where
  tid : Nat
  index : Nat
  sub : Nat
  write : Bool
  total : Nat
  data : List Byte := []
  seq : Nat := 0
  acked : Nat := 0
  deriving DecidableEq, Repr

/-- A session (R636 to R648). `path` 0 service port, 1 JTAG, 2 hub window; `ready` false while AUTH is awaited. -/
structure Sess where
  level : Nat := 0
  path : Nat := 0
  init : Nat := 0
  sid : Nat := 0
  ready : Bool := false
  cn : List Byte := []
  dc : List Byte := []
  ks : List Byte := []
  opened : Nat := 0
  last : Nat := 0
  cntIn : Nat := 0
  cntOut : Nat := 0
  subs : List (Nat × Nat) := []
  notes : List (Nat × Nat) := []
  lost : Bool := false
  segs : List Seg := []
  bridge : Word := 0
  deriving DecidableEq, Repr

/-- An object access received complete and waiting for the bridge (R641). -/
structure ObjReq where
  slot : Nat
  tid : Nat
  write : Bool
  index : Nat
  sub : Nat
  data : List Byte
  deriving DecidableEq, Repr

/-- The access that waits for its publisher (R655): the tag of its request and the length of its value. -/
structure PubWait where
  req : ObjReq
  tag : Nat
  len : Nat
  deriving DecidableEq, Repr

/-- A message of the device on a carrier: path, initiator of a window, bytes without padding. -/
structure OutMsg where
  path : Nat
  init : Nat
  bytes : List Byte
  deriving DecidableEq, Repr

/-- The service port and the object bridge (R629 to R655). `host` holds window messages not yet taken: initiator and
bytes. -/
structure Svc where
  node : Nat := 0
  phys : Nat := 0
  cfg : Word := 0x00000000003C0110
  received : Nat := 0
  discarded : Nat := 0
  busOffs : Nat := 0
  slots : Tbl Sess := []
  queue : List ObjReq := []
  wait : Option PubWait := none
  outbox : List OutMsg := []
  host : List (Nat × List Byte) := []
  pubs : Tbl Word := []
  deriving DecidableEq, Repr

/-- Pins the block drives that no register shows: CFG_DONE released, XTRIG_N driven until a time, the boundary
register's cells (R402, R591, R678), and what the straps measured; `measured` that power has been good since the last
POWER-ON reset asserted (R535). -/
structure Pins where
  cfgDone : Bool := false
  xtrigUntil : Nat := 0
  boundary : Tbl Bool := []
  modesel : Nat := 0
  pudsel : Bool := false
  hv7is33 : Bool := false
  measured : Bool := false
  deriving DecidableEq, Repr


/-! ## The machine -/

/-- The machine's state. -/
structure State where
  pending : List Instr := []
  now : Nat := 0
  fresh : Nat := 0
  cells : Tbl Cell := []
  rclks : Tbl Rclk := []
  gov : Gov := {}
  engines : Tbl Engine := []
  banks : Tbl Bank := []
  wraps : Tbl Wrapper := []
  routers : Tbl Router := []
  noc : Noc := {}
  ports : Tbl Port := []
  clk : Clk := {}
  pwr : Pwr := {}
  rst : Rst := {}
  sec : Sec := {}
  dbg : Dbg := {}
  gcfg : Word := 0x0000000300000000
  gsel : Tbl Word := []
  mcs : Tbl Mc := []
  guards : Tbl Guard := []
  lanes : Tbl LaneReg := []
  quads : Tbl Quad := []
  lks : Tbl Link := []
  ld : Loader := {}
  frames : Tbl (List Word) := []
  panels : Tbl Panel := []
  darners : Tbl Darner := []
  lg : Legacy := {}
  st : Stest := {}
  svc : Svc := {}
  pins : Pins := {}
  deriving DecidableEq, Repr

/-- The machine in its power-on reset: source 0x01 asserted with reach POWER-ON, RST_N driven, start-up at stage 0
(R520, R523, R535; log entry 12). -/
def State.reset : State :=
  { rst := { asserted := [(1, 6)], covered := [(1, 6)], active := true, seen := 1, eff := 6, driving := true, pinHigh := false, hubLoading := true,
             state := 0x0000000000000000 } }

/-- What a command answers. -/
abbrev Out := Host.Outcome State Fault Refusal

end Sys2Proof.Machine
end

