-- ==== Sys2Proof/Machine/Ecc.lean ====
section
/-! DEFINITION. The DEC-TED code of banks and engine memories as its outcomes (R111, R184, R202). -/

namespace Sys2Proof.Machine
open Sys2Proof

/-- What a read through the code finds. -/
inductive EccKind where
  | clean | corrected | uncorrectable
  deriving DecidableEq, Repr

/-- The number of bits in error among the 80, and which row of R202 applies: with four or more, any row, by a free
value (log entry 15). -/
def eccKind (free : Nat) (flip : BitVec 80) : EccKind :=
  let n := (bitsOf 80 flip.toNat).length
  if n = 0 then .clean
  else if n ≤ 2 then .corrected
  else if n = 3 then .uncorrectable
  else if (Config.freeWord free).toNat % 3 = 0 then .uncorrectable else .corrected

/-- The word delivered: as stored, corrected, the data as read with poison, or, with four or more bits in error and no
uncorrectable verdict, a free word (R202). -/
def eccRead (free : Nat) (w : PWord) (flip : BitVec 80) : PWord :=
  match eccKind free flip with
  | .clean => w
  | .uncorrectable => { val := w.val ^^^ flip.setWidth 64, pois := true }
  | .corrected =>
    if (bitsOf 80 flip.toNat).length ≤ 2 then w
    else if (Config.freeWord free).toNat % 3 = 1 then w
    else { val := Config.freeWord (free + 1), pois := bitOf (Config.freeWord free) 8 }

/-- One byte into a CRC-32C, bits taken least significant first (log entry 18). -/
def crc32cByte (c : Nat) (b : Byte) : Nat :=
  (List.range 8).foldl (fun x _ => if x % 2 = 1 then (x / 2) ^^^ 0x82F63B78 else x / 2) (c ^^^ b.toNat)
def crc32c (bs : List Byte) : Nat := (bs.foldl crc32cByte 0xFFFFFFFF) ^^^ 0xFFFFFFFF

end Sys2Proof.Machine
end

