-- ==== Sys2Proof/Machine/Flags.lean ====
section
/-! DEFINITION. The flag rules and lane arithmetic of the word cell (R51, R54 to R56), on natural numbers. -/

namespace Sys2Proof.Machine
open Sys2Proof

/-- Lane i, of w bits, of x. -/
def lane (w i x : Nat) : Nat := (x >>> (w * i)) % 2 ^ w

/-- n lanes of w bits put together, lane i being f i. -/
def joinLanes (w n : Nat) (f : Nat → Nat) : Nat :=
  (List.range n).foldl (fun acc i => acc + (f i % 2 ^ w) <<< (w * i)) 0

/-- A lane read as signed or unsigned (SGN). -/
def laneInt (sgn : Bool) (w x : Nat) : Int := if sgn then sext w x else (x % 2 ^ w : Nat)

/-- The low w bits of an integer. -/
def wrapTo (w : Nat) (x : Int) : Nat := (x % (2 ^ w : Int)).toNat

/-- The limits of a lane, unsigned or signed (R55). -/
def clampLane (sgn : Bool) (w : Nat) (x : Int) : Int :=
  if sgn then max (-(2 ^ (w - 1) : Int)) (min (2 ^ (w - 1) - 1 : Int) x)
  else max 0 (min (2 ^ w - 1 : Int) x)

/-- One lane's sum: the bits written, carry-out, signed overflow, and whether it saturated (R54, R55). `sub` adds the
complement of b. -/
structure LaneSum where
  res : Nat
  carry : Bool
  ovf : Bool
  satd : Bool
  deriving DecidableEq, Repr

/-- The sum of one lane. -/
def addLane (sub sat sgn : Bool) (w a b cin : Nat) : LaneSum :=
  let b' := if sub then 2 ^ w - 1 - b else b
  let full := a + b' + cin
  let signed : Int := sext w a + sext w b' + cin
  let exact : Int := if sub then laneInt sgn w a - laneInt sgn w b - 1 + cin
                     else laneInt sgn w a + laneInt sgn w b + cin
  let lim := clampLane sgn w exact
  { res := if sat then wrapTo w lim else full % 2 ^ w
    carry := decide (2 ^ w ≤ full)
    ovf := decide (signed ≠ sext w (full % 2 ^ w))
    satd := sat && decide (lim ≠ exact) }

/-- What an operation gives a cell: the result; the flags it writes; its chain outputs. -/
structure CellRes where
  res : Nat
  z : Option Bool := none
  n : Option Bool := none
  c : Option Bool := none
  v : Option Bool := none
  co : Bool := false
  eo : Bool := false
  wreg : Bool := true
  deriving DecidableEq, Repr

/-- A result that writes Z and N from the whole 64 bits (R55). -/
def resZN (x : Nat) : CellRes :=
  let r := x % 2 ^ 64
  { res := r, z := some (r == 0), n := some (nbit r 63) }

/-- A result that writes Z alone. -/
def resZ (x : Nat) : CellRes := let r := x % 2 ^ 64; { res := r, z := some (r == 0) }

/-- ADD, SUB and CMP over the lanes WIDTH gives (R54 to R56). With SAT set, V is whether a lane saturated and nothing else: R55
leaves open whether a signed overflow of the top lane that saturates nothing shows too (log entry 58, DESIGN CHOICE). -/
def cellSum (sub sat sgn : Bool) (width chn a b : Nat) (ci : Bool) : CellRes :=
  let w := 64 >>> width
  let n := 2 ^ width
  let dflt := if sub then 1 else 0
  let cin0 := if chn = 0 then dflt else if chn = 2 then 1 else ci.toNat
  let one := fun i => addLane sub sat sgn w (lane w i a) (lane w i b) (if i = 0 then cin0 else dflt)
  let top := one (n - 1)
  let r := joinLanes w n (fun i => (one i).res)
  { res := r, z := some (r == 0), n := some (nbit r 63), c := some top.carry
    v := some (if sat then (List.range n).any (fun i => (one i).satd) else top.ovf)
    co := top.carry }

/-- A shift or rotate of every lane by B[5:0] modulo the lane width (R54). -/
def cellShift (op : Nat) (sgn : Bool) (width a b : Nat) : CellRes :=
  let w := 64 >>> width
  let k := (b % 64) % w
  resZN (joinLanes w (2 ^ width) (fun i =>
    let x := lane w i a
    if op = 0x14 then x <<< k
    else if op = 0x15 then (if sgn then wrapTo w (sext w x >>> k) else x >>> k)
    else if op = 0x16 then (x <<< k) + (x >>> (w - k))
    else (x >>> k) + (x <<< (w - k))))

/-- The number of ones among the low n bits. -/
def popcount (n x : Nat) : Nat := (bitsOf n x).length

/-- Leading zeros of a 64-bit value, 0 to 64. -/
def clz64 (x : Nat) : Nat := if x % 2 ^ 64 = 0 then 64 else 63 - Nat.log2 (x % 2 ^ 64)

/-- The product of 16-bit lane i of a and b (R54). -/
def mul16 (sgn : Bool) (i a b : Nat) : Int := laneInt sgn 16 (lane 16 i a) * laneInt sgn 16 (lane 16 i b)

/-- The sum of the four lane products. -/
def dot4 (sgn : Bool) (a b : Nat) : Int :=
  mul16 sgn 0 a b + mul16 sgn 1 a b + mul16 sgn 2 a b + mul16 sgn 3 a b

end Sys2Proof.Machine
end

