-- ==== Sys2Proof/Machine/Operands.lean ====
section
/-! DEFINITION. Operand forms: a word cell's slot fields, immediates and context index (R48, R50, R51, R57). -/

namespace Sys2Proof.Machine
open Sys2Proof

/-- Field [hi:lo] of a natural number. -/
def nfld (x hi lo : Nat) : Nat := (x >>> lo) % 2 ^ (hi + 1 - lo)

/-- Operand B built from IMM (R51). -/
def cellImm (sgn : Bool) (width imm : Nat) : Nat :=
  let ext := fun (w src : Nat) => if sgn then ((sext src imm) % (2 ^ w : Int)).toNat else imm % 2 ^ src
  if width = 0 then ext 64 16
  else if width = 1 then ext 32 16 * (2 ^ 32 + 1)
  else if width = 2 then (imm % 2 ^ 16) * (2 ^ 48 + 2 ^ 32 + 2 ^ 16 + 1)
  else (imm % 256) * 0x0101010101010101

/-- What a cell sees in a cycle: its inputs, those whose select is unused reading 0 (R86), and CI and EI (R46). -/
structure CellPins where
  wi0 : Word
  wi1 : Word
  wi2 : Word
  wi3 : Word
  bi : BitVec 8
  ci : Bool
  ei : Bool
  deriving DecidableEq, Repr

/-- Operand A: registers A to D, then WI0 to WI3 (R50). -/
def cellOperand (regs : List Word) (i : CellPins) (sel : Nat) : Nat :=
  ((regs ++ [i.wi0, i.wi1, i.wi2, i.wi3]).getD sel 0).toNat

/-- The steering inputs (R48 STEER). -/
def cellSteer (ctl : Nat) (i : CellPins) : Nat :=
  if nbit ctl 6 then i.bi.toNat / 32 else i.bi.toNat % 8

/-- The cell enable (R48 CENSEL, R49). -/
def cellEnabled (ctl : Nat) (i : CellPins) : Bool :=
  match nfld ctl 9 8 with
  | 1 => i.bi.getLsbD 6
  | 2 => i.bi.getLsbD 7
  | _ => true

/-- The context index of this cycle (R57); `seqIx` is the index a sequence stands at. -/
def cellIndex (ctl seqIx : Nat) (i : CellPins) : Nat :=
  match nfld ctl 2 1 with
  | 1 => seqIx
  | 2 => cellSteer ctl i
  | _ => nfld ctl 5 3

end Sys2Proof.Machine
end

