-- ==== Sys2Proof/Machine/F32.lean ====
section
/-! DEFINITION. The arithmetic of the signal engines: exact values, rounding with ties toward plus infinity, special
values and flags (R117 to R126, R131, R133). Flags are a mask laid out as XF: IV 1, OF 2, UF 4, PR 8, SAT 16. -/

namespace Sys2Proof.Machine
open Sys2Proof

/-- A binary32 value as an exact integer in units of 2^-149. -/
def f32Int (x : Nat) : Int :=
  let e := nfld x 30 23
  let m := nfld x 22 0
  let v : Nat := if e = 0 then m else (m + 2 ^ 23) <<< (e - 1)
  if nbit x 31 then -(v : Int) else v

/-- NaN, infinity and signalling NaN. -/
def f32Nan (x : Nat) : Bool := nfld x 30 23 == 255 && nfld x 22 0 != 0
def f32Inf (x : Nat) : Bool := nfld x 30 23 == 255 && nfld x 22 0 == 0
def f32Snan (x : Nat) : Bool := f32Nan x && !nbit x 22
def f32Neg (x : Nat) : Nat := if nbit x 31 then x - 2 ^ 31 else x + 2 ^ 31

/-- One term of a part's exact expression, in units of 2^-298 (R121, R122). -/
structure FTerm where
  nan : Bool := false
  iv : Bool := false
  inf : Bool := false
  neg : Bool := false
  val : Int := 0
  deriving DecidableEq, Repr

/-- An operand standing alone. -/
def fPlain (x : Nat) : FTerm :=
  { nan := f32Nan x, iv := f32Snan x, inf := f32Inf x, neg := nbit x 31
    val := if nfld x 30 23 = 255 then 0 else f32Int x * 2 ^ 149 }

/-- The product of two operands. -/
def fMul (x y : Nat) : FTerm :=
  let nan := f32Nan x || f32Nan y
  let inf := (f32Inf x || f32Inf y) && !nan
  let zero := nfld x 30 0 == 0 || nfld y 30 0 == 0
  { nan := nan || (inf && zero), iv := f32Snan x || f32Snan y || (inf && zero), inf := inf && !zero
    neg := nbit x 31 != nbit y 31
    val := if nan || inf then 0 else f32Int x * f32Int y }

/-- The largest finite magnitude's successor, 2^128, in units of 2^-298. -/
def fTop : Int := 2 ^ 213 * 2 ^ 213

/-- ○ of an exact nonzero value in units of 2^-298: the bits and the flags (R120, R122). -/
def fRound (x : Int) : Nat × Nat :=
  let u := max 149 (Nat.log2 x.natAbs - 23)
  let q := (x + 2 ^ (u - 1)) / 2 ^ u
  let r := q * 2 ^ u
  let sgn := if x < 0 then 2 ^ 31 else 0
  let pr := if r = x then 0 else 8
  let m := q.natAbs
  if q = 0 then (sgn, pr)
  else if fTop ≤ r ∨ r ≤ -fTop then (sgn + 0x7F800000, 2 + 8)
  else
    let m' := if m = 2 ^ 24 then 2 ^ 23 else m
    let u' := if m = 2 ^ 24 then u + 1 else u
    let bits := if m' < 2 ^ 23 then m' else (u' - 149 + 1) * 2 ^ 23 + (m' - 2 ^ 23)
    (sgn + bits, pr + (if pr = 8 ∧ m' < 2 ^ 23 then 4 else 0))

/-- A part: its terms added exactly and rounded once; the default NaN, infinities and signed zeros of R122. -/
def fSum (ts : List FTerm) : Nat × Nat :=
  let iv := if ts.any (·.iv) then 1 else 0
  let pinf := ts.any (fun t => t.inf && !t.neg)
  let ninf := ts.any (fun t => t.inf && t.neg)
  if pinf ∧ ninf then (0x7FC00000, 1)
  else if ts.any (·.nan) then (0x7FC00000, iv)
  else if pinf then (0x7F800000, iv)
  else if ninf then (0xFF800000, iv)
  else
    let x := ts.foldl (fun a t => a + t.val) 0
    if x = 0 then (if ts.all (fun t => t.neg && t.val == 0) then 2 ^ 31 else 0, 0)
    else fRound x

/-- rshr_s of an integer (R120). -/
def rshr (s : Nat) (x : Int) : Int := if s = 0 then x else (x + 2 ^ (s - 1)) / 2 ^ s

/-- sat_w: the clamped value and the SAT flag (R120, R122). -/
def satw (w : Nat) (x : Int) : Int × Nat :=
  let y := clampLane true w x
  (y, if y = x then 0 else 16)

/-- sat16 as bits with its flag. -/
def sat16b (x : Int) : Nat × Nat := let r := satw 16 x; (wrapTo 16 r.1, r.2)

/-- CVTI of one part: nearest integer to x × 2^15, ties up, then sat16; NaN gives 0 and IV (R121, R122). -/
def cvtiPart (x : Nat) : Nat × Nat :=
  if f32Nan x then (0, 1)
  else if f32Inf x then (if nbit x 31 then 0x8000 else 0x7FFF, 8 + 16)
  else
    let v := f32Int x
    let q := rshr 134 v
    let r := sat16b q
    (r.1, r.2 + (if clampLane true 16 q * 2 ^ 134 = v then 0 else 8))

/-- CVTF of one part: n × 2^-15 exactly (R121). -/
def cvtfPart (n : Int) : Nat := if n = 0 then 0 else (fRound (n * 2 ^ 200 * 2 ^ 83)).1

/-- The constant pi in units of 2^-160. -/
def piFix : Nat := 0x3243f6a8885a308d313198a2e03707344a4093822

/-- A Taylor series in units of 2^-160: terms left n, next divisor index d, argument squared, term, sum. -/
def taylor : Nat → Nat → Int → Int → Int → Int
  | 0, _, _, _, acc => acc
  | n + 1, d, x2, t, acc =>
    let t' := -(t * x2 / 2 ^ 160 / ((d : Int) * (d + 1)))
    taylor n (d + 2) x2 t' (acc + t')

/-- Sine and cosine of 2 pi m / 4096 for m up to 512, in units of 2^-160. -/
def sinOct (m : Nat) : Int :=
  let x : Int := (piFix * m / 2048 : Nat)
  taylor 20 2 (x * x / 2 ^ 160) x x
def cosOct (m : Nat) : Int :=
  let x : Int := (piFix * m / 2048 : Nat)
  taylor 20 1 (x * x / 2 ^ 160) (2 ^ 160) (2 ^ 160)

/-- Sine and cosine over a quarter turn, m up to 1024. -/
def sinQ (m : Nat) : Int := if m = 0 then 0 else if m ≤ 512 then sinOct m else cosOct (1024 - m)
def cosQ (m : Nat) : Int := if m = 1024 then 0 else if m ≤ 512 then cosOct m else sinOct (1024 - m)

/-- The real and imaginary part of exp(−2 pi i m / 4096), m below 2,048, in units of 2^-160 (R131). -/
def twiddle (m : Nat) : Int × Int :=
  if m < 1024 then (cosQ m, -(sinQ m)) else (-(sinQ (m - 1024)), -(cosQ (m - 1024)))

/-- A twiddle part in CF32 and CI16 (R131). -/
def twF32 (x : Int) : Nat := if x = 0 then 0 else (fRound (x * 2 ^ 138)).1
def twI16 (x : Int) : Int := (satw 16 (rshr 145 x)).1

/-- N of TWC (R132) and the exponent taken modulo N / 2. -/
def twcLog (w : Word) : Nat := let l := fld w 63 60; if l = 0 ∨ 13 ≤ l then 12 else l
def twcHalf (w : Word) : Nat := 2 ^ twcLog w / 2

/-- w(k) for the j-th butterfly of a BFLY (R131). -/
def twAt (w : Word) (j : Nat) (cjt : Bool) : Int × Int :=
  let k := (fld w 11 0 + j * fld w 47 36) % twcHalf w
  let t := twiddle (k * 2 ^ (12 - twcLog w))
  if cjt then (t.1, -t.2) else t

/-- W8^m in units of 2^-15, with W8 the exact value of R133. -/
def w8 (m : Nat) : Int × Int :=
  let h : Int × Int := if m % 2 = 0 then (32768, 0) else (23170, -23170)
  match (m / 2) % 4 with
  | 0 => h
  | 1 => (h.2, -h.1)
  | 2 => (-h.1, -h.2)
  | _ => (-h.2, h.1)

/-- X[k] of FFT8 in units of 2^-30 (R133). -/
def fft8 (x : List (Int × Int)) (cjt : Bool) (k : Nat) : Int × Int :=
  (List.range 8).foldl (fun a n =>
    let w0 := w8 (n * k % 8)
    let w := if cjt then (w0.1, -w0.2) else w0
    let v := x.getD n (0, 0)
    (a.1 + v.1 * w.1 - v.2 * w.2, a.2 + v.1 * w.2 + v.2 * w.1)) (0, 0)

/-- Three bits reversed. -/
def rev3 (s : Nat) : Nat := 4 * (s % 2) + 2 * (s / 2 % 2) + s / 4 % 2

/-- The headroom of a CI16 part (R126). -/
def headroom (x : Nat) : Nat :=
  let y := if nbit x 15 then 0x7FFF - x % 0x8000 else x % 0x8000
  if y = 0 then 15 else 14 - Nat.log2 y

end Sys2Proof.Machine
end

