-- ==== Sys2Proof/Machine/EngineCore.lean ====
section
/-! DEFINITION. A signal engine as a machine of its own: registers, address generators, the exposed pipeline, compute
operations, loops, repeats, branches, exceptions and the verdict buffer (R105 to R175). Effects that reach other units
are answered as events, which Engine.lean applies. -/

namespace Sys2Proof.Machine
open Sys2Proof

/-- What an engine's step does outside the engine: a trace record, an expiry of the watchdog by a wrong WDK write, a
restart of the watchdog, a stop of issue. -/
inductive EngEv where
  | trace (kind src dst : Nat)
  | expiry
  | stop (cause : Nat)
  deriving DecidableEq, Repr

/-- The RW bits of AG, AGX, TWC, BXD, LP, ICTL and ERPT (R114, R115, R125, R132, R150, R154, R163). -/
def agMask : Word := fldMask 63 62 ||| fldMask 47 24 ||| fldMask 22 12 ||| fldMask 10 0
def agxMask : Word := fldMask 47 24 ||| fldMask 10 0
def twcMask : Word := fldMask 63 60 ||| fldMask 47 36 ||| fldMask 11 0
def bxdMask : Word := fldMask 63 63 ||| fldMask 23 8 ||| fldMask 3 0
def lpMask : Word := fldMask 63 63 ||| fldMask 47 32 ||| fldMask 25 16 ||| fldMask 9 0
def ictlMask : Word := fldMask 21 16 ||| fldMask 9 8 ||| fldMask 6 0
def erptMask : Word := fldMask 28 16 ||| fldMask 3 0
def adrMask : Word := fldMask 9 0

/-- XST, composed of what it reports (R175). -/
def xstWord (x : Engine) : Word :=
  mkWord [(36, 32, x.vb.length), (23, 20, x.bad.toNat), (19, 16, x.vids.toNat), (10, 8, x.xfers.length)]

def agGet (x : Engine) (g : Nat) : Word := tget 0 x.ag g
def agxGet (x : Engine) (g : Nat) : Word := tget 0 x.agx g

/-- A special register as SMOV reads it (R113, R149). -/
def specRead (x : Engine) (n : Nat) : Word :=
  if n < 8 then agGet x n
  else if n < 16 then agxGet x (n - 8)
  else match n with
    | 0x10 => x.twc
    | 0x11 => x.xf
    | 0x12 => x.bxd
    | 0x13 => x.f.val
    | 0x14 => x.lp0
    | 0x15 => x.lp1
    | 0x16 => x.ictl
    | 0x17 => x.ipend
    | 0x18 => x.irp
    | 0x19 => x.epc
    | 0x1A => x.ecause
    | 0x1B => x.erpt
    | 0x1C => xstWord x
    | 0x1D => x.ag7s
    | 0x1F => x.scr
    | _ => 0

/-- A whole-register write by SMOV, AGADD or a post-modify (R114 to R163). LP0 or LP1 written last is the innermost
where both are active (R146, log entry 8). -/
def specWrite (x : Engine) (n : Nat) (w : Word) : Engine :=
  if n < 8 then { x with ag := tset 0 x.ag n (w &&& agMask) }
  else if n < 16 then { x with agx := tset 0 x.agx (n - 8) (w &&& agxMask) }
  else match n with
    | 0x10 => { x with twc := w &&& twcMask }
    | 0x12 => { x with bxd := w &&& bxdMask }
    | 0x14 => { x with lp0 := w &&& lpMask, inner := false }
    | 0x15 => { x with lp1 := w &&& lpMask, inner := true }
    | 0x16 => { x with ictl := w &&& ictlMask }
    | 0x18 => { x with irp := w &&& adrMask }
    | 0x19 => { x with epc := w &&& adrMask }
    | 0x1B => { x with erpt := w &&& erptMask }
    | 0x1D => { x with ag7s := w &&& agMask }
    | 0x1F => { x with scr := w }
    | _ => x

/-- A W1C write by SMOV: XF, IPEND and XST.BAD (R123, R153, R175). -/
def specClear (x : Engine) (n : Nat) (w : Word) : Engine :=
  match n with
  | 0x11 => { x with xf := x.xf &&& ~~~ w }
  | 0x17 => { x with ipend := x.ipend &&& ~~~ w }
  | 0x1C => { x with bad := x.bad &&& ~~~ (BitVec.ofNat 4 (fld w 23 20)) }
  | _ => x

/-- Words a data-memory access of w words at addr touches; a quad ignores the two low bits (R106). -/
def quadBase (quad : Bool) (addr : Nat) : Nat := if quad then addr / 4 * 4 % 2048 else addr % 2048

/-- One data-memory word as a load sees it: the youngest verdict-buffer entry that holds it, with that entry's mask,
else memory (R172). -/
def dmSee (x : Engine) (a : Nat) : Lane :=
  let hits := x.vb.filterMap (fun e =>
    if e.addr ≤ a ∧ a < e.addr + e.ws.length then
      some { (e.ws.getD (a - e.addr) {}) with pend := e.ws.foldl (fun m l => m ||| l.pend) 0 }
    else none)
  hits.getLastD (tget {} x.dm a)

/-- The same for a lane; the pending mask is carried. -/
def eccLane (free : Nat) (l : Lane) (flip : BitVec 80) : Lane :=
  let r := eccRead free { val := l.val, pois := l.pois } flip
  { l with val := r.val, pois := r.pois }

/-- A word written to data memory, and to the queued copies of run-ahead loads (R168). -/
def dmPut (x : Engine) (a : Nat) (l : Lane) : Engine :=
  { x with
    dm := tset {} x.dm a l
    raq := x.raq.map (fun q => (q.1, q.2.map (fun e =>
      if e.addr ≤ a ∧ a < e.addr + e.ws.length then { e with ws := e.ws.set (a - e.addr) l } else e))) }

def dmPutAll (x : Engine) (a : Nat) (ws : List Lane) : Engine :=
  (ws.zipIdx).foldl (fun y p => dmPut y ((a + p.2) % 2048) p.1) x

/-- BXD observes the parts of one stored lane (R126): `fmt` 1 CF32, 2 CI16. -/
def bxdLane (fmt : Nat) (b : Word) (l : Lane) : Word :=
  if l.pois then b
  else if fmt = 1 then
    [fld l.val 31 0, fld l.val 63 32].foldl (fun b p =>
      let e := nfld p 30 23
      if e = 255 then b
      else
        let b1 := setFld b 23 16 (max (fld b 23 16) e)
        if nfld p 30 0 = 0 then b1 else setFld b1 15 8 (min (fld b1 15 8) e)) b
  else
    (List.range 4).foldl (fun b i =>
      setFld b 3 0 (min (fld b 3 0) (headroom (fld l.val (16 * i + 15) (16 * i))))) b

def bxdObserve (x : Engine) (fmt : Nat) (ws : List Lane) : Engine :=
  if fmt = 0 ∨ bitOf x.bxd 63 = false then x
  else { x with bxd := ws.foldl (bxdLane fmt) x.bxd }

/-- The OR of the masks of some lanes. -/
def pendOf (ls : List Lane) : BitVec 4 := ls.foldl (fun m l => m ||| l.pend) 0

/-- Whether a store goes into the verdict buffer: its data is pending or its address matches an entry (R172). -/
def vbTakes (vb : List VbEntry) (addr : Nat) (ws : List Lane) : Bool :=
  pendOf ws != 0 || vb.any (fun e => decide (e.addr < addr + ws.length) && decide (addr < e.addr + e.ws.length))

/-- A store reaches memory, where an observed one is seen in BXD a cycle later (R138), or the verdict buffer (R172). -/
def storeLand (x : Engine) (addr : Nat) (ws : List Lane) (obs : Nat) : Engine :=
  if vbTakes x.vb addr ws then { x with vb := x.vb ++ [{ addr := addr, ws := ws, obs := obs }] }
  else
    let y := dmPutAll x addr ws
    if obs = 0 then y else { y with flights := { due := y.cyc + 1, rank := 0, act := .obs obs ws } :: y.flights }

/-- A load of kind lk reads memory (R140, R167): from the head of its run-ahead queue where that matches, with the
queue discarded where it does not. The head stays where the load does not move its generator (log entry 51). -/
def loadRead (free : Nat) (x : Engine) (lk addr ag : Nat) (pm : Bool) (flips : List (BitVec 80)) :
    List Lane × Engine :=
  let quad := lk == 1
  let a := quadBase quad addr
  let n := if quad then 4 else 1
  let plain := (List.range n).map (fun i =>
    eccLane (free + 2 * i) (dmSee x ((a + i) % 2048)) (flips.getD i 0))
  match tget [] x.raq ag with
  | [] => (plain, x)
  | e :: q =>
    if e.addr = a ∧ e.lk = lk then
      let ws := (List.range n).map (fun i =>
        let seen := dmSee x ((a + i) % 2048)
        if x.vb.any (fun v => decide (v.addr ≤ a + i) && decide (a + i < v.addr + v.ws.length)) then seen
        else e.ws.getD i {})
      (ws, { x with raq := tset [] x.raq ag (if pm then q else e :: q) })
    else (plain, { x with raq := tset [] x.raq ag [] })

/-- The lanes a load writes (R128): a quad into VL, a word into all four lanes, a word into F. -/
def loadWrites (lk vl : Nat) (ws : List Lane) : RegFile × List (Nat × Lane) :=
  if lk = 1 then (.v, (List.range 4).map (fun i => (vl * 4 + i, ws.getD i {})))
  else if lk = 2 then (.v, (List.range 4).map (fun i => (vl * 4 + i, ws.headD {})))
  else (.f, [(0, ws.headD {})])

/-- Lanes written to a register file. -/
def putLanes (x : Engine) (file : RegFile) (ws : List (Nat × Lane)) : Engine :=
  let f := fun (t : Tbl Lane) => ws.foldl (fun t p => tset {} t p.1 p.2) t
  match file with
  | .v => { x with v := f x.v }
  | .accm => { x with accm := f x.accm }
  | .accv => { x with accv := f x.accv }
  | .accb => { x with accm := f x.accm, accv := f x.accv }
  | .f => { x with f := (ws.map (·.2)).headD x.f }
  | .s => { x with s := f x.s }

/-- First pass of a cycle: loads whose read cycle it is read memory and become register writes three cycles later
(R138, R140), and F takes what lands in it. -/
def landReads (free : Nat) (x : Engine) : Engine :=
  x.flights.zipIdx.foldl (fun y p =>
    let fl := p.1
    if fl.due = x.cyc then
      match fl.act with
      | .load lk addr vl ag pm flips =>
        let r := loadRead (free + 8 * p.2) y lk addr ag pm flips
        let w := loadWrites lk vl r.1
        { r.2 with flights := y.flights ++ [{ due := x.cyc + 3, rank := fl.rank, act := .lanes w.1 w.2 }] }
      | .lanes .f ws => putLanes y .f ws
      | _ => { y with flights := y.flights ++ [fl] }
    else { y with flights := y.flights ++ [fl] }) { x with flights := [] }

/-- Run-ahead queues discarded (R169). -/
def raDiscard (x : Engine) : Engine := { x with raq := [] }
def raDrop (x : Engine) (g : Nat) : Engine := { x with raq := tset [] x.raq g [] }

/-- One landing of the second pass; a generator written by SMOV or AGADD loses its queue (R169). -/
def landOne (y : Engine) (a : Act) : Engine :=
  match a with
  | .lanes file ws => putLanes y file ws
  | .spec n w =>
    if n = 0x13 then { y with f := { val := w, pois := false, pend := 0 } }
    else specWrite (if n < 16 then raDrop y (n % 8) else y) n w
  | .part n m w drop => specWrite (if drop then raDrop y (n % 8) else y) n ((specRead y n &&& ~~~ m) ||| (w &&& m))
  | .clear n w => specClear y n w
  | .store addr ws obs => storeLand y addr ws obs
  | .ftap l0 l1 l2 => putLanes y .v [(60, l0), (61, l1), (62, l2), (63, y.f)]
  | _ => y

/-- Whether a landing is an update by the hardware of a register that software writes in the same cycle, whose value stands
(R17, log entry 51). -/
def overruled (now : List Flight) (a : Act) : Bool :=
  match a with
  | .part n _ _ false => now.any (fun fl => match fl.act with
    | .spec k _ => k == n
    | _ => false)
  | _ => false

/-- An engine cycle begins: what is due lands, the observations of the cycle before first, then in issue order, memory reads
before writes, and flags after register writes (R123, R126, R139). -/
def engTick (free : Nat) (x0 : Engine) : Engine :=
  let x := landReads free { x0 with cyc := x0.cyc + 1 }
  let dueNow := x.flights.filter (fun fl => fl.due == x.cyc)
  let x1 := dueNow.foldl (fun y fl => match fl.act with
    | .obs fmt ws => bxdObserve y fmt ws
    | _ => y) { x with flights := x.flights.filter (fun fl => fl.due != x.cyc) }
  let y := dueNow.foldl (fun y fl => match fl.act with
    | .xf _ => y
    | .obs _ _ => y
    | a => if overruled dueNow a then y else landOne y a) x1
  dueNow.foldl (fun y fl => match fl.act with
    | .xf b => { y with xf := y.xf ||| b }
    | _ => y) y

/-- Every result in flight lands (R143, R156). -/
def engDrain (free : Nat) (x : Engine) : Engine :=
  (List.range 8).foldl (fun y i => engTick (free + 1024 * i) y) x

/-- A flight put in its place: by the rank of what issued it, later ones behind (R139). -/
def insFlight (f : Flight) : List Flight → List Flight
  | [] => [f]
  | g :: t => if f.rank < g.rank then f :: g :: t else g :: insFlight f t

def addFlights (x : Engine) (rank : Nat) (fs : List (Nat × Act)) : Engine :=
  { x with flights := fs.foldl (fun l p =>
      insFlight { due := x.cyc + p.1, rank := 4 * x.cyc + rank, act := p.2 } l) x.flights }

/-! ### Instruction fields (R127, R128) -/

def iOp (w : Nat) : Nat := nfld w 63 58
def iFmt (w : Nat) : Bool := nbit w 57
def iVd (w : Nat) : Nat := nfld w 56 53
def iVa (w : Nat) : Nat := nfld w 52 49
def iVb (w : Nat) : Nat := nfld w 48 45
def iMod (w : Nat) : Nat := nfld w 44 40
def iTgt (w : Nat) : Nat := nfld w 49 40
def iSlot (w k : Nat) : Nat := if k = 0 then nfld w 39 20 else nfld w 19 0
def slLk (sl : Nat) : Nat := nfld sl 19 18
def slLag (sl : Nat) : Nat := nfld sl 17 15
def slVl (sl : Nat) : Nat := nfld sl 14 11
def slLpm (sl : Nat) : Bool := nbit sl 10
def slSk (sl : Nat) : Nat := nfld sl 9 8
def slSag (sl : Nat) : Nat := nfld sl 7 5
def slVs (sl : Nat) : Nat := nfld sl 4 1
def slSpm (sl : Nat) : Bool := nbit sl 0

/-- LEN of a generator, and of BLK (R114, R115). -/
def agLen (w : Word) : Nat :=
  let l := fld w 47 36
  let l' := if l = 0 ∨ 2048 < l then 2048 else l
  if fld w 63 62 = 2 then 2 ^ Nat.log2 l' else l'
def agBlk (w : Word) : Nat := let l := fld w 47 36; if l = 0 ∨ 2048 < l then 2048 else l

/-- The low m bits of x reversed. -/
def revBits (m x : Nat) : Nat := (List.range m).foldl (fun a i => 2 * a + (x >>> i) % 2) 0

/-- The address a generator gives (R116). -/
def agAddr (w : Word) : Nat :=
  if fld w 63 62 = 2 then (fld w 10 0 + revBits (Nat.log2 (agLen w)) (fld w 22 12 % agLen w)) % 2048
  else (fld w 10 0 + fld w 22 12) % 2048

/-- IDX moved by d with the modulus of the mode (R116). -/
def agMove (w : Word) (d : Int) : Word :=
  let m : Nat := if fld w 63 62 = 1 ∨ fld w 63 62 = 2 then agLen w else 2048
  setFld w 22 12 ((((fld w 22 12 : Int) + d) % (m : Int)).toNat)

/-- A post-modify (R116): the new AG and AGX. -/
def agPost (w wx : Word) : Word × Word :=
  let step := sext 12 (fld w 35 24)
  if fld w 63 62 = 3 then
    let cnt := fld wx 10 0 + 1
    if cnt = agBlk wx then (agMove w (sext 12 (fld wx 35 24)), setFld wx 10 0 0)
    else (agMove w step, setFld wx 10 0 cnt)
  else (agMove w step, wx)

/-- The generators an instruction post-modifies, in order: slot 0 load, slot 0 store, slot 1 load, slot 1 store
(R116). A suppressed store does not post-modify (R136). -/
def postList (w : Nat) (skip : Bool) : List Nat :=
  let one := fun k =>
    let sl := iSlot w k
    (if slLk sl ≠ 0 ∧ slLpm sl = true then [slLag sl] else []) ++
    (if slSk sl ≠ 0 ∧ slSpm sl = true ∧ skip = false then [slSag sl] else [])
  one 0 ++ one 1

/-- AG and AGX after the post-modifies of an instruction. -/
def postAll (x : Engine) (w : Nat) (skip : Bool) : Engine :=
  (postList w skip).foldl (fun y g =>
    let r := agPost (agGet y g) (agxGet y g)
    { y with ag := tset 0 y.ag g r.1, agx := tset 0 y.agx g r.2 }) x

/-! ### Legality, poison and stalls -/

/-- The MOD bits an operation names and the formats it accepts (R129); none where the OP is not listed. Formats: 0 any,
1 CF32 alone, 2 CI16 alone. -/
def opRule (op : Nat) : Option (Nat × Nat) :=
  match op with
  | 0x00 => some (31, 0)
  | 0x01 => some (3, 0)
  | 0x02 => some (13, 0)
  | 0x03 => some (13, 0)
  | 0x04 => some (3, 0)
  | 0x05 => some (1, 1)
  | 0x06 => some (15, 0)
  | 0x07 => some (15, 2)
  | 0x08 => some (0, 0)
  | 0x09 => some (31, 0)
  | 0x0A => some (31, 0)
  | 0x0B => some (1, 2)
  | 0x0C => some (0, 1)
  | 0x0D => some (7, 0)
  | 0x10 => some (0, 0)
  | 0x11 => some (0, 0)
  | 0x12 => some (0, 0)
  | 0x13 => some (0, 0)
  | 0x14 => some (3, 0)
  | 0x20 => some (17, 0)
  | 0x21 => some (0, 0)
  | 0x22 => some (31, 0)
  | 0x23 => some (31, 0)
  | 0x24 => some (31, 0)
  | 0x25 => some (3, 0)
  | 0x26 => some (3, 0)
  | 0x30 => some (31, 0)
  | 0x31 => some (31, 0)
  | 0x32 => some (31, 0)
  | 0x33 => some (31, 0)
  | 0x34 => some (31, 0)
  | 0x35 => some (7, 0)
  | 0x36 => some (0, 0)
  | 0x37 => some (0, 0)
  | 0x38 => some (3, 0)
  | _ => none

/-- The illegal-instruction cases of R130. -/
def isIll (x : Engine) (w : Nat) : Bool :=
  match opRule (iOp w) with
  | none => true
  | some (m, f) =>
    (f == 1 && iFmt w) || (f == 2 && !iFmt w) || (iMod w &&& (31 - m)) != 0
    || (slLk (iSlot w 0) == 3 && slVl (iSlot w 0) != 0) || (slLk (iSlot w 1) == 3 && slVl (iSlot w 1) != 0)
    || (iOp w == 0x06 && iVd w % 2 == 1)
    || (iOp w == 0x33 && nbit w 52)
    || (iOp w == 0x0D && iMod w % 4 == 3)
    || (decide (0 < x.repLeft) && decide (0x30 ≤ iOp w))

def lpAct (w : Word) : Bool := bitOf w 63
def lpEnd (w : Word) : Nat := fld w 25 16
def lpStart (w : Word) : Nat := fld w 9 0

/-- Whether the innermost active loop is LP1; none with no loop active (R146). -/
def innermost (x : Engine) : Option Bool :=
  if lpAct x.lp0 && lpAct x.lp1 then some x.inner
  else if lpAct x.lp1 then some true
  else if lpAct x.lp0 then some false
  else none

def activeLoops (x : Engine) : List Word := [x.lp0, x.lp1].filter lpAct

/-- The control-sequence cases of R148 for the instruction w at PC. -/
def isCseq (x : Engine) (w : Nat) : Bool :=
  let op := iOp w
  let ctl := decide (0x30 ≤ op ∧ op ≤ 0x37)
  (ctl && decide (0 < x.dsLeft))
  || (decide (0x30 ≤ op ∧ op ≤ 0x32) &&
      (activeLoops x).any (fun l => decide (lpEnd l ≤ x.pc + 2) && decide (x.pc ≤ lpEnd l)))
  || (op == 0x34 && ((lpAct x.lp0 && lpAct x.lp1) || decide (iTgt w ≤ x.pc)
      || (activeLoops x).any (fun l => decide (lpEnd l ≤ iTgt w))))
  || (op == 0x33 && (activeLoops x).any (fun l => lpEnd l == x.pc))
  || (op == 0x36 && !bitOf x.ictl 2)

def vLanes (x : Engine) (r : Nat) : List Lane := (List.range 4).map (fun i => tget {} x.v (r * 4 + i))
def sLane (x : Engine) (r : Nat) : Lane := tget {} x.s r
def accKey (a i k : Nat) : Nat := (a * 4 + i) * 3 + k
def accLanes (t : Tbl Lane) (a : Nat) (ci16 : Bool) : List Lane :=
  (List.range 4).flatMap (fun i => (List.range (if ci16 then 3 else 1)).map (fun k => tget {} t (accKey a i k)))

/-- The value F holds in the next cycle: what lands in it then, else what it holds (R134). -/
def fNext (x : Engine) : Lane :=
  x.flights.foldl (fun l fl => if fl.due = x.cyc + 1 then
    match fl.act with
    | .lanes .f ws => (ws.map (·.2)).headD l
    | .spec 0x13 w => { val := w }
    | _ => l
  else l) x.f

/-- The operands an instruction consumes: the register number of ECAUSE.DETAIL and the lanes read (R111, R162). The
operations that carry marks consume none. The first poisoned one in this order is DETAIL's; R162 does not say which of
several that is (log entry 53, DESIGN CHOICE). -/
def consumed (x : Engine) (w : Nat) : List (Nat × List Lane) :=
  let va := (iVa w, vLanes x (iVa w))
  let vb := (iVb w, vLanes x (iVb w))
  let sd := (0x20 + iVd w, [sLane x (iVd w)])
  let sa := (0x20 + iVa w, [sLane x (iVa w)])
  match iOp w with
  | 0x01 => [va, vb]
  | 0x02 => [va, vb]
  | 0x03 => [va, vb]
  | 0x04 => [va, vb, (0x10 + iVd w % 4, accLanes x.accm (iVd w % 4) (iFmt w))]
  | 0x05 => [(15, vLanes x 15), vb, (0x10 + iVd w % 4, accLanes x.accm (iVd w % 4) false), (0x14, [fNext x])]
  | 0x06 => [va, vb]
  | 0x07 => [va]
  | 0x09 => [(0x10 + iVa w % 4, accLanes x.accv (iVa w % 4) (iFmt w))]
  | 0x0A => [(0x10 + iVa w % 4, accLanes x.accv (iVa w % 4) (iFmt w))]
  | 0x0B => [(iVa w, ((vLanes x (iVa w)).drop (if nbit (iMod w) 0 then 2 else 0)).take 2)]
  | 0x0C => [va, vb]
  | 0x11 => [va, vb]
  | 0x12 => [va, vb]
  | 0x13 => [va, vb]
  | 0x20 => if nbit (iMod w) 0 then [sa]
            else if nbit (iMod w) 4 && iVb w == 3 then [(0x14, [x.f])] else []
  | 0x21 => [sa, (0x20 + iVb w, [sLane x (iVb w)])]
  | 0x22 => [sa]
  | 0x23 => [sd]
  | 0x31 => [sd]
  | 0x32 => [sd]
  | 0x33 => if iFmt w then [sa] else []
  | 0x34 => [sd]
  | 0x38 => [sd, sa]
  | _ => []

/-- The number of an exception due at this boundary, with DETAIL (R159); none where the instruction may issue. Of several due
together the order is VBAD, PFETCH, ILL, CSEQ, POIS, which R159 leaves open (log entry 53, DESIGN CHOICE). -/
def excDue (x : Engine) : Option (Nat × Nat) :=
  let p := tget { val := 0, pois := false } x.pm x.pc
  let w := p.val.toNat
  if x.vbad ≠ 0 ∧ x.slots = 0 ∧ bitOf x.ictl 4 = false ∧ x.repLeft = 0 ∧ x.dsLeft = 0 then some (5, x.vbad.toNat)
  else if p.pois then some (4, 0)
  else if isIll x w then some (1, 0)
  else if isCseq x w then some (2, 0)
  else match (consumed x w).find? (fun c => c.2.any (·.pois)) with
    | some c => some (3, c.1)
    | none => none

/-- The memory slots' store data. -/
def storeData (x : Engine) (sl : Nat) : List Lane :=
  if slSk sl = 2 then [tget {} x.v (slVs sl * 4)] else vLanes x (slVs sl)

/-- The verdict buffer as it stands when the store of slot k finds it: the stores in flight and that of an earlier slot have
come (R172). -/
def vbComing (x : Engine) (w k : Nat) : List VbEntry :=
  let put := fun (vb : List VbEntry) (a : Nat) (ws : List Lane) =>
    if vbTakes vb a ws then vb ++ [{ addr := a, ws := ws, obs := 0 }] else vb
  let now := x.flights.foldl (fun vb fl => match fl.act with
    | .store a ws _ => put vb a ws
    | _ => vb) x.vb
  let sl := iSlot w 0
  if k = 1 ∧ slSk sl ≠ 0 ∧ !nbit x.slots 1 then put now (quadBase (slSk sl != 2) (agAddr (agGet x (slSag sl)))) (storeData x sl) else now

/-- Whether the instruction at PC must wait: pending operands of the control group (R171), a full set of XFERs or
verdict IDs, pending source words (R152, R170), or a full verdict buffer (R172). -/
def mustStall (x : Engine) (w : Nat) (skip : Bool) : Bool :=
  let op := iOp w
  let sw := op == 0x20 && nbit (iMod w) 0
  let waits := sw || op == 0x31 || op == 0x32 || op == 0x34 || (op == 0x33 && iFmt w) || op == 0x38
  let sa := (sLane x (iVa w)).val
  let la := fld sa 10 0
  let n := fld sa 22 12 + 1
  (waits && (consumed x w).any (fun c => pendOf c.2 != 0))
  || (op == 0x38 && !(iMod w % 4 == 0 && decide (8 < n)) &&
      (decide (4 ≤ x.xfers.length)
       || (!bitOf sa 24 && bitOf sa 25 && x.vids == 15)
       || (bitOf sa 24 && (List.range n).any (fun i => (dmSee x ((la + i) % 2048)).pend != 0))))
  || (!skip && [0, 1].any (fun k =>
      let sl := iSlot w k
      let d := storeData x sl
      let a := quadBase (slSk sl != 2) (agAddr (agGet x (slSag sl)))
      slSk sl != 0 && (let vb := vbComing x w k
        decide (16 ≤ vb.length) && vbTakes vb a d)))

/-! ### Compute operations (R121, R129) -/

def reOf (l : Lane) : Nat := l.val.toNat % 2 ^ 32
def imOf (l : Lane) : Nat := l.val.toNat / 2 ^ 32
def part16 (l : Lane) (i : Nat) : Int := sext 16 (l.val.toNat >>> (16 * i))
def mkC (re im : Nat) : Word := BitVec.ofNat 64 (re + im * 2 ^ 32)

/-- A CF32 lane of two parts with their flags. -/
def cLane (re im : Nat × Nat) (pend : BitVec 4) : Lane × Nat :=
  ({ val := mkC re.1 im.1, pend := pend }, re.2 ||| im.2)

/-- A CI16 lane of four parts with their flags. -/
def iLane (p : Nat → Nat × Nat) (pend : BitVec 4) : Lane × Nat :=
  ({ val := BitVec.ofNat 64 (joinLanes 16 4 (fun i => (p i).1)), pend := pend },
   (p 0).2 ||| (p 1).2 ||| (p 2).2 ||| (p 3).2)

/-- b′ in CF32: conjugated by CJ, negated by NG (R121). -/
def bConj (b : Lane) (cj ng : Bool) : Nat × Nat :=
  (if ng then f32Neg (reOf b) else reOf b, if cj != ng then f32Neg (imOf b) else imOf b)

/-- The terms of a complex product a × b. -/
def prodRe (a : Lane) (b : Nat × Nat) : List FTerm := [fMul (reOf a) b.1, fMul (imOf a) (f32Neg b.2)]
def prodIm (a : Lane) (b : Nat × Nat) : List FTerm := [fMul (reOf a) b.2, fMul (imOf a) b.1]

/-- The integer complex product of packed sample j of a and b′. -/
def iprod (a b : Lane) (j : Nat) (cj ng : Bool) : Int × Int :=
  let ar := part16 a (2 * j)
  let ai := part16 a (2 * j + 1)
  let br := if ng then -(part16 b (2 * j)) else part16 b (2 * j)
  let bi := if cj != ng then -(part16 b (2 * j + 1)) else part16 b (2 * j + 1)
  (ar * br - ai * bi, ar * bi + ai * br)

def pick (p : Int × Int) (i : Nat) : Int := if i % 2 = 0 then p.1 else p.2

/-- CMUL of one lane. -/
def cmulLane (ci cj ng : Bool) (a b : Lane) : Lane × Nat :=
  let pend := a.pend ||| b.pend
  if ci then iLane (fun i => sat16b (rshr 15 (pick (iprod a b (i / 2) cj ng) i))) pend
  else let b' := bConj b cj ng; cLane (fSum (prodRe a b')) (fSum (prodIm a b')) pend

/-- CADD and CSUB of one lane. -/
def caddLane (sub ci cj : Bool) (sh : Nat) (a b : Lane) : Lane × Nat :=
  let pend := a.pend ||| b.pend
  if ci then
    iLane (fun i =>
      let bi := if cj && i % 2 == 1 then -(part16 b i) else part16 b i
      sat16b (rshr sh (if sub then part16 a i - bi else part16 a i + bi))) pend
  else
    let b' := bConj b (cj != sub) sub
    let b'' := if sub then (b'.1, if cj then imOf b else f32Neg (imOf b)) else b'
    cLane (fSum [fPlain (reOf a), fPlain b''.1]) (fSum [fPlain (imOf a), fPlain b''.2]) pend

/-- The 160 bits of an accumulator lane from its slices. -/
def accVal (ls : List Lane) : Nat :=
  (ls.getD 0 {}).val.toNat + (ls.getD 1 {}).val.toNat * 2 ^ 64 + (ls.getD 2 {}).val.toNat % 2 ^ 32 * 2 ^ 128

/-- MAC of one accumulator lane (slices, a, b): the slices written and the flags. -/
def macLane (ci cj ng : Bool) (c : List Lane) (a b : Lane) : List Lane × Nat :=
  let pend := pendOf c ||| a.pend ||| b.pend
  if ci then
    let v := accVal c
    let r := fun i => satw 40 (sext 40 (v >>> (40 * i)) + pick (iprod a b (i / 2) cj ng) i)
    let n := joinLanes 40 4 (fun i => wrapTo 40 (r i).1)
    ([{ val := BitVec.ofNat 64 n, pend := pend }, { val := BitVec.ofNat 64 (n >>> 64), pend := pend },
      { val := BitVec.ofNat 64 (n >>> 128), pend := pend }], (r 0).2 ||| (r 1).2 ||| (r 2).2 ||| (r 3).2)
  else
    let b' := bConj b cj ng
    let c0 := c.headD {}
    let r := cLane (fSum (fPlain (reOf c0) :: prodRe a b')) (fSum (fPlain (imOf c0) :: prodIm a b')) pend
    ([r.1], r.2)

/-- BFLY of one lane: p′, q′ and the flags (R121, R131). -/
def bflyLane (ci cjt : Bool) (sh : Nat) (twc : Word) (lane : Nat) (p q : Lane) : Lane × Lane × Nat :=
  let pend := p.pend ||| q.pend
  if ci then
    let t := fun j =>
      let w := twAt twc (2 * lane + j) cjt
      let wr := twI16 w.1
      let wi := twI16 w.2
      let qr := part16 q (2 * j)
      let qi := part16 q (2 * j + 1)
      (qr * wr - qi * wi, qr * wi + qi * wr)
    let up := iLane (fun i => sat16b (rshr (15 + sh) (part16 p i * 2 ^ 15 + pick (t (i / 2)) i))) pend
    let dn := iLane (fun i => sat16b (rshr (15 + sh) (part16 p i * 2 ^ 15 - pick (t (i / 2)) i))) pend
    (up.1, dn.1, up.2 ||| dn.2)
  else
    let w := twAt twc lane cjt
    let wf := (twF32 w.1, twF32 w.2)
    let wn := (f32Neg wf.1, f32Neg wf.2)
    let up := cLane (fSum (fPlain (reOf p) :: prodRe q wf)) (fSum (fPlain (imOf p) :: prodIm q wf)) pend
    let dn := cLane (fSum (fPlain (reOf p) :: prodRe q wn)) (fSum (fPlain (imOf p) :: prodIm q wn)) pend
    (up.1, dn.1, up.2 ||| dn.2)

/-- FFT8 of a register (R133). -/
def fft8Lanes (sh : Nat) (cjt : Bool) (a : List Lane) : List (Lane × Nat) :=
  let xs := (List.range 8).map (fun s =>
    let l := a.getD (s / 2) {}
    (part16 l (2 * (s % 2)), part16 l (2 * (s % 2) + 1)))
  let out := (List.range 8).map (fun s => fft8 xs cjt (rev3 s))
  (List.range 4).map (fun l => iLane (fun i =>
    sat16b (rshr (15 + sh) (pick (out.getD (2 * l + i / 2) (0, 0)) i))) (pendOf a))

/-- ARD of one lane (R121). -/
def ardLane (ci : Bool) (sh : Nat) (c : List Lane) : Lane × Nat :=
  if ci then
    let v := accVal c
    iLane (fun i => sat16b (rshr sh (sext 40 (v >>> (40 * i))))) (pendOf c)
  else ({ val := (c.headD {}).val, pend := (c.headD {}).pend }, 0)

/-- A V register written from lanes with flags, landing after lat cycles; XF takes the flags after 7 (R138). -/
def vOut (lat vd : Nat) (ls : List (Lane × Nat)) : List (Nat × Act) :=
  [(lat, .lanes .v (ls.zipIdx.map (fun p => (vd * 4 + p.2, p.1.1)))),
   (7, .xf (BitVec.ofNat 64 (ls.foldl (fun m p => m ||| p.2) 0)))]

/-- Accumulator a written in its three slices from lists of slices per lane. -/
def accWrites (a : Nat) (ls : List (List Lane)) : List (Nat × Lane) :=
  ls.zipIdx.flatMap (fun p => p.1.zipIdx.map (fun q => (accKey a p.2 q.2, q.1)))

def zip4 (f : Lane → Lane → α) (a b : List Lane) : List α := List.zipWith f a b

/-- The results in flight of a compute operation, each with its latency (R121, R129, R138). An AXFR into an accumulator issued
in the cycle after a MAC or FTAP into it lands between the two latencies of R138: MAC and FTAP then see the AXFR's value, ARD,
ARDC and AXFR the MAC's; R139 does not say which stands (log entry 53, DESIGN CHOICE). -/
def computeFlights (x : Engine) (w : Nat) : List (Nat × Act) :=
  let m := iMod w
  let ci := iFmt w
  let a := vLanes x (iVa w)
  let b := vLanes x (iVb w)
  let vd := iVd w
  let raw := fun (lat : Nat) (ls : List Lane) => [(lat, Act.lanes .v (ls.zipIdx.map (fun p => (vd * 4 + p.2, p.1))))]
  let bits := fun (f : Word → Word → Word) => raw 2 (zip4 (fun p q =>
    ({ val := f p.val q.val, pend := p.pend ||| q.pend } : Lane)) a b)
  let acc := vd % 4
  let slices := fun (t : Tbl Lane) (r i : Nat) =>
    (List.range (if ci then 3 else 1)).map (fun k => tget ({} : Lane) t (accKey r i k))
  let sOut := fun (lat : Nat) (l : Lane) => [(lat, Act.lanes .s [(vd, l)])]
  let lat := if ci then 3 else 4
  match iOp w with
  | 0x01 => vOut lat vd (zip4 (cmulLane ci (nbit m 0) (nbit m 1)) a b)
  | 0x02 => vOut lat vd (zip4 (caddLane false ci (nbit m 0) (m / 4 % 4)) a b)
  | 0x03 => vOut lat vd (zip4 (caddLane true ci (nbit m 0) (m / 4 % 4)) a b)
  | 0x04 =>
    let rs := (List.range 4).map (fun i =>
      macLane ci (nbit m 0) (nbit m 1) (slices x.accm acc i) (a.getD i {}) (b.getD i {}))
    let ws := accWrites acc (rs.map (·.1))
    [(1, .lanes .accm ws), (4, .lanes .accv ws), (7, .xf (BitVec.ofNat 64 (rs.foldl (fun f r => f ||| r.2) 0)))]
  | 0x05 =>
    let win := vLanes x 15
    let rs := (List.range 4).map (fun i =>
      macLane false (nbit m 0) false (slices x.accm acc i) (win.getD i {}) (b.getD i {}))
    let ws := accWrites acc (rs.map (·.1))
    [(1, .lanes .accm ws), (4, .lanes .accv ws), (7, .xf (BitVec.ofNat 64 (rs.foldl (fun f r => f ||| r.2) 0))),
     (1, .ftap (win.getD 1 {}) (win.getD 2 {}) (win.getD 3 {}))]
  | 0x06 =>
    let rs := (List.range 4).map (fun i =>
      bflyLane ci (nbit m 1) (m / 4 % 4) x.twc i (a.getD i {}) (b.getD i {}))
    vOut lat vd (rs.map (fun r => (r.1, r.2.2))) ++ vOut lat (vd + 1) (rs.map (fun r => (r.2.1, 0)))
  | 0x07 => vOut 6 vd (fft8Lanes (m % 8) (nbit m 3) a)
  | 0x08 => [(1, .lanes .accb (accWrites acc (List.replicate 4 [{}, {}, {}])))]
  | 0x09 => vOut 4 vd ((List.range 4).map (fun i => ardLane ci m (slices x.accv (iVa w % 4) i)))
  | 0x0A => vOut 4 vd ((List.range 4).map (fun i => ardLane ci m (slices x.accv (iVa w % 4) i))) ++
            [(1, .lanes .accb (accWrites (iVa w % 4) (List.replicate 4 [{}, {}, {}])))]
  | 0x0B =>
    let hi := if nbit m 0 then 2 else 0
    raw 4 ((List.range 4).map (fun s =>
      let l := a.getD (hi + s / 2) {}
      { val := mkC (cvtfPart (part16 l (2 * (s % 2)))) (cvtfPart (part16 l (2 * (s % 2) + 1))), pend := l.pend }))
  | 0x0C =>
    vOut 4 vd ((List.range 4).map (fun l =>
      let src := if l < 2 then a else b
      let p := src.getD (2 * (l % 2)) {}
      let q := src.getD (2 * (l % 2) + 1) {}
      iLane (fun i => cvtiPart ([reOf p, imOf p, reOf q, imOf q].getD i 0)) (p.pend ||| q.pend)))
  | 0x0D =>
    let k := m % 4
    let r := iVa w % 4
    if nbit m 2 then
      [(2, .lanes .accb ((List.range 4).map (fun i =>
        let l := tget {} x.v (vd * 4 + i)
        (accKey r i k, { l with val := if k = 2 then l.val &&& fldMask 31 0 else l.val }))))]
    else raw 2 ((List.range 4).map (fun i => tget {} x.accv (accKey r i k)))
  | 0x10 => raw 2 a
  | 0x11 => bits (· &&& ·)
  | 0x12 => bits (· ||| ·)
  | 0x13 => bits (· ^^^ ·)
  | 0x14 => raw 2 ((List.range 4).map (fun i => a.getD ((i + m % 4) % 4) {}))
  | 0x20 =>
    let n := nfld m 4 4 * 16 + iVb w
    if nbit m 0 then
      let sv := (sLane x (iVa w)).val
      if n = 0x11 ∨ n = 0x17 ∨ n = 0x1C then [(2, .clear n sv)] else [(2, .spec n sv)]
    else sOut 2 { val := specRead (postAll x w (decide (0 < x.repLeft) && decide (0 < x.repSsk))) n, pend := if n = 0x13 then x.f.pend else 0 }
  | 0x21 =>
    let p := sLane x (iVa w)
    let q := sLane x (iVb w)
    sOut 1 { val := p.val + q.val, pend := p.pend ||| q.pend }
  | 0x22 =>
    let p := sLane x (iVa w)
    sOut 1 { val := p.val + BitVec.ofInt 64 (sext 9 (nfld w 48 40)), pend := p.pend }
  | 0x23 =>
    let p := sLane x vd
    sOut 1 { val := BitVec.ofNat 64 (p.val.toNat * 2 ^ 13 + nfld w 52 40), pend := p.pend }
  | 0x25 => sOut 2 (a.getD (m % 4) {})
  | 0x26 => [(2, .lanes .v [(vd * 4 + m % 4, sLane x (iVa w))])]
  | _ => []

/-! ### Issue -/

/-- The loads and stores of slot k (bits of `slots`: 1 load 0, 2 store 0, 4 load 1, 8 store 1) that have not been made
yet in this issue cycle (R128, R140). -/
def slotFlights (x : Engine) (w k : Nat) (skip : Bool) (flips : List (BitVec 80)) (ld st : Bool) : List (Nat × Act) :=
  let sl := iSlot w k
  (if ld ∧ slLk sl ≠ 0 then
    [(1, .load (slLk sl) (agAddr (agGet x (slLag sl))) (slVl sl) (slLag sl) (slLpm sl) flips)] else []) ++
  (if st ∧ slSk sl ≠ 0 ∧ skip = false then
    [(2, .store (quadBase (slSk sl != 2) (agAddr (agGet x (slSag sl)))) (storeData x sl)
      (if slSk sl = 3 then (if iFmt w then 2 else 1) else 0))] else [])

/-- The kind of the last load made through each generator, and (4) whether one has been made with post-modify, which gives the
generator its queue (R167). -/
def noteKinds (x : Engine) (w : Nat) : Engine :=
  [0, 1].foldl (fun y k =>
    let sl := iSlot w k
    let old := tget 0 y.lastKind (slLag sl) / 4
    if slLk sl ≠ 0 then { y with lastKind := tset 0 y.lastKind (slLag sl) (slLk sl + 4 * (if slLpm sl then 1 else old)) } else y) x

/-- A data breakpoint on a slot of the instruction (R588). -/
def dbpHit (x : Engine) (w : Nat) (skip : Bool) : Bool :=
  [0, 1].any (fun i =>
    let d := tget 0x000007FF00000000 x.dbp i
    let m := fld d 42 32
    let hit := fun (quad : Bool) (a : Nat) =>
      (List.range (if quad then 4 else 1)).any (fun j =>
        ((quadBase quad a + j) &&& m) == (fld d 10 0 &&& m))
    bitOf d 63 && [0, 1].any (fun k =>
      let sl := iSlot w k
      (bitOf d 61 && slLk sl != 0 && hit (slLk sl == 1) (agAddr (agGet x (slLag sl))))
      || (bitOf d 62 && slSk sl != 0 && !skip && hit (slSk sl != 2) (agAddr (agGet x (slSag sl))))))

/-- An instruction breakpoint at PC (R587). -/
def ibpHit (x : Engine) : Bool :=
  !x.skipIbp && !x.stepping && (x.repLeft == 0 || x.repFirst) &&
  (List.range 4).any (fun k => bitOf (tget 0 x.ibp k) 63 && fld (tget 0 x.ibp k) 9 0 == x.pc)

/-- Issue stops with a cause: RUN clears, and the engine halts once what it issued completes (R143, R586). -/
def engStop (x : Engine) (cause src : Nat) : Engine × List EngEv :=
  ({ x with halting := true, hcause := cause, ctl := setBit x.ctl 0 false, stepping := false },
   [.trace 6 src cause, .stop cause])

/-- Entry to the handler at `vec` (R156): results land, queues are discarded, ICTL is saved, loops become inactive and
AG7 is exchanged with its shadow unless a handler is already running. -/
def engEntry (free : Nat) (x0 : Engine) (exc : Bool) (vec : Nat) : Engine :=
  let x := raDiscard (engDrain free x0)
  let i := x.ictl
  let i1 := setBit (setBit (setBit i 1 (bitOf i 0)) 0 false) 3 (bitOf i 2)
  let i2 := setBit i1 5 (bitOf i 4)
  let i3 := setFld i2 9 8 ((lpAct x.lp1).toNat * 2 + (lpAct x.lp0).toNat)
  let i4 := setBit (if exc then setBit i3 4 true else i3) 2 true
  let swap := !bitOf i 2
  { x with
    ictl := i4
    lp0 := setBit x.lp0 63 false
    lp1 := setBit x.lp1 63 false
    ag := if swap then tset 0 x.ag 7 x.ag7s else x.ag
    ag7s := if swap then agGet x 7 else x.ag7s
    pc := vec, repLeft := 0, repSsk := 0, repFirst := false, dsLeft := 0, dsNext := 0, slots := 0
    st := .running, point := false, retPath := false, skipIbp := false }

/-- Taking exception `code` with `detail` at PC (R156, R159 to R164); a double fault halts. EPC, ECAUSE and ERPT are set at the
boundary, before what is in flight completes. -/
def engException (free : Nat) (x : Engine) (code detail : Nat) : Engine × List EngEv :=
  if code ≠ 5 ∧ bitOf x.ictl 4 = true then engStop x 3 x.pc
  else
    let inrep := decide (0 < x.repLeft)
    let y := { x with
      epc := BitVec.ofNat 64 x.pc
      ecause := mkWord [(25, 16, if x.dsLeft = 0 then 0 else x.dsNext), (15, 8, detail), (6, 5, x.dsLeft),
                        (4, 4, inrep.toNat), (3, 0, code)]
      erpt := if inrep then mkWord [(28, 16, x.repLeft), (3, 0, x.repSsk)] else x.erpt
      vbad := if code = 5 then 0 else x.vbad }
    let z := engEntry free y true 0x008
    if x.stepping then
      let r := engStop z 6 x.pc
      (r.1, .trace 4 x.pc 0x008 :: r.2)
    else (z, [.trace 4 x.pc 0x008])

/-- The next address once the instruction at PC has issued for the last time, with the action of the innermost loop on
END (R147) and the count of delay slots (R145). -/
def advance (x : Engine) (a : Nat) : Engine × List EngEv :=
  if 0 < x.dsLeft then
    if x.dsLeft = 1 then ({ x with dsLeft := 0, dsNext := 0, pc := x.dsNext }, [])
    else ({ x with dsLeft := x.dsLeft - 1, pc := (a + 1) % 1024 }, [])
  else
    match innermost x with
    | none => ({ x with pc := (a + 1) % 1024, point := false }, [])
    | some l1 =>
      let lp := if l1 then x.lp1 else x.lp0
      let put := fun (y : Engine) (w : Word) => if l1 then { y with lp1 := w } else { y with lp0 := w }
      if lpEnd lp = a then
        if 1 < fld lp 47 32 then
          ({ put x (setFld lp 47 32 (fld lp 47 32 - 1)) with pc := lpStart lp, point := true },
           [.trace 2 a (lpStart lp)])
        else ({ put x (setBit (setFld lp 47 32 0) 63 false) with pc := (a + 1) % 1024, point := true }, [])
      else ({ x with pc := (a + 1) % 1024, point := false }, [])

/-- A taken branch to t (R145, R147): loops it leaves end, and any loop inside them. -/
def branchTo (x : Engine) (t : Nat) : Engine :=
  let out := fun (w : Word) => lpAct w && !(decide (lpStart w ≤ t) && decide (t ≤ lpEnd w))
  let both := lpAct x.lp0 && lpAct x.lp1
  let kill0 := out x.lp0 || (both && !x.inner && out x.lp1)
  let kill1 := out x.lp1 || (both && x.inner && out x.lp0)
  raDiscard { x with
    lp0 := if kill0 then setBit x.lp0 63 false else x.lp0
    lp1 := if kill1 then setBit x.lp1 63 false else x.lp1
    dsLeft := 2, dsNext := t }

/-- Whether the event of a WAITE has come (R144). -/
def waitMet (x : Engine) (m : Nat) : Bool :=
  match m % 8 with
  | 1 => x.xfers.isEmpty
  | 2 => x.vids == 0
  | 3 => bitOf x.ipend 0
  | _ => x.ipend != 0

/-- The lowest free verdict ID. -/
def freeVid (x : Engine) : Nat := ((List.range 4).find? (fun v => !x.vids.getLsbD v)).getD 0

/-- XFER issues (R151, R152, R170). A C0 transfer of more than eight words sends nothing and ends with an error. -/
def doXfer (x : Engine) (w : Nat) : Engine :=
  let sd := (sLane x (iVd w)).val
  let sa := (sLane x (iVa w)).val
  let n := fld sa 22 12 + 1
  let wr := bitOf sa 24
  if iMod w % 4 = 0 ∧ 8 < n then { x with ipend := setBit x.ipend 2 true }
  else
    let early := !wr && bitOf sa 25
    let v := freeVid x
    { x with
      xfers := x.xfers ++ [{ addr := fld sd 47 3 * 8, laddr := fld sa 10 0, len := n, write := wr
                             cls := iMod w % 4, early := if early then some v else none }]
      vids := if early then x.vids ||| BitVec.ofNat 4 (1 <<< v) else x.vids }

/-- RETI (R157): the saved state returns, loops reactivate, AG7 is exchanged back, and the next instruction issues three
cycles later, at IRP or by the return path of R162 and R163. An exception is entered only with EX 0, so that the handler that returns
is an exception's where EX is 1 and PEX 0 (log entry 52); `carried` is a stack of the interrupts under way. The boundary
returned to at a loop's START is no interrupt point, since the loop does not issue START again there (R155; log entry 53,
DESIGN CHOICE). -/
def doReti (free : Nat) (x : Engine) : Engine :=
  let i := x.ictl
  let fromExc := bitOf i 4 && !bitOf i 5
  let i1 := setBit (setBit (setBit i 0 (bitOf i 1)) 2 (bitOf i 3)) 4 (bitOf i 5)
  let swap := !bitOf i1 2
  let y := engTick (free + 8192) (engTick (free + 9216) { x with
    ictl := i1
    lp0 := setBit x.lp0 63 (bitOf i 8)
    lp1 := setBit x.lp1 63 (bitOf i 9)
    ag := if swap then tset 0 x.ag 7 x.ag7s else x.ag
    ag7s := if swap then agGet x 7 else x.ag7s })
  let path := fromExc || x.carried.headD false
  let under := if fromExc then x.carried else x.carried.drop 1
  let pc := fld (if fromExc then x.epc else x.irp) 9 0
  if path then
    let ds := fld x.ecause 6 5
    let rem := fld x.erpt 28 16
    let rep := bitOf x.ecause 4 && decide (1 ≤ rem)
    { y with pc := pc, dsLeft := ds, dsNext := if ds = 0 then 0 else fld x.ecause 25 16
             repLeft := if rep then rem else 0, repSsk := if rep then fld x.erpt 3 0 else 0, repFirst := false
             retPath := true, carried := under, point := false }
  else { y with pc := pc, point := false, retPath := false, carried := under }

/-- The effect of the instruction w at PC, its slots done: control operations, then the sequence (R135, R136, R143 to
R147). REP with FMT 1 takes VA from bits 52:49, though R135 lets bits 51:40 hold anything; a WAITE that waits lets every
result in flight land at once, however soon its event comes (R144; log entry 53, DESIGN CHOICE). -/
def issueRest (free : Nat) (x : Engine) (w : Nat) : Engine × List EngEv :=
  let a := x.pc
  let op := iOp w
  let sv := (sLane x (iVd w)).val
  if 0 < x.repLeft then
    let y := { x with repLeft := x.repLeft - 1, repSsk := x.repSsk - 1, repFirst := false }
    if y.repLeft = 0 then advance y a else (y, [])
  else if op = 0x30 ∨ (op = 0x31 ∧ sv = 0) ∨ (op = 0x32 ∧ sv ≠ 0) then
    ({ branchTo x (iTgt w) with pc := (a + 1) % 1024, point := false }, [.trace 1 a (iTgt w)])
  else if op = 0x31 ∨ op = 0x32 then
    ({ x with dsLeft := 2, dsNext := (a + 3) % 1024, pc := (a + 1) % 1024, point := false }, [])
  else if op = 0x33 then
    let n := if iFmt w then min 4096 (sLane x (iVa w)).val.toNat else nfld w 51 40 + 1
    let y := { x with pc := (a + 1) % 1024, point := false }
    if n = 0 then advance y ((a + 1) % 1024)
    else ({ y with repLeft := n, repSsk := iVd w, repFirst := true }, [])
  else if op = 0x34 then
    let n := min 65535 sv.toNat
    if n = 0 then ({ x with pc := (iTgt w + 1) % 1024, point := false }, [])
    else
      let lw := mkWord [(63, 63, 1), (47, 32, n), (25, 16, iTgt w), (9, 0, (a + 1) % 1024)]
      let y := { x with pc := (a + 1) % 1024, point := false }
      if lpAct x.lp0 then ({ y with lp1 := lw, inner := true }, []) else ({ y with lp0 := lw, inner := false }, [])
  else if op = 0x35 then
    if waitMet x (iMod w) then advance x a else ({ engDrain free x with st := .waiting }, [])
  else if op = 0x36 then let y := doReti free x; (y, [.trace 5 a y.pc])
  else if op = 0x37 then
    let r := advance x a
    let st := engStop r.1 1 a
    (st.1, r.2 ++ st.2)
  else if op = 0x38 then advance (doXfer x w) a
  else advance x a

/-- WDK's effect at issue (R176). -/
def wdkEv (x : Engine) (w : Nat) : Engine × List EngEv :=
  if iOp w = 0x20 ∧ nbit (iMod w) 0 = true ∧ nbit (iMod w) 4 = true ∧ iVb w = 14 ∧ bitOf x.wdt 0 = true then
    if (sLane x (iVa w)).val.toNat % 65536 = 0x00A5 then ({ x with wdFirst := false }, []) else (x, [.expiry])
  else (x, [])

/-- What may be done with the instruction at PC now. -/
inductive Ready where
  | no
  | stopIbp
  | exc (code detail : Nat)
  | go (w : Nat)
  deriving DecidableEq, Repr

/-- The issue cycle's state, its results landed, and what the engine may do in it. A BAD verdict's exception is taken in WAITING
too (R159). -/
def engReady (free : Nat) (x : Engine) : Engine × Ready :=
  if x.st = .waiting ∧ x.halting = false ∧ x.vbad ≠ 0 ∧ bitOf x.ictl 4 = false then (x, .exc 5 x.vbad.toNat)
  else if x.st ≠ .running ∨ x.halting = true then (x, .no)
  else if ibpHit x then (x, .stopIbp)
  else
    let y := if x.slots = 0 then engTick free x else x
    let w := (tget { val := 0, pois := false } y.pm y.pc).val.toNat
    match excDue y with
    | some (c, d) => (y, .exc c d)
    | none => if mustStall y w (decide (0 < y.repLeft) && decide (0 < y.repSsk)) then (x, .no) else (y, .go w)

/-- The updates of a generator's post-modifies: its index and, in two-dimensional mode, its count (R116). -/
def postFlights (x posts : Engine) (g : Nat) : List (Nat × Act) :=
  (1, Act.part g (fldMask 22 12) (agGet posts g) false) ::
    (if fld (agGet x g) 63 62 = 3 then [(1, Act.part (8 + g) (fldMask 10 0) (agxGet posts g) false)] else [])

/-- One instruction issues whole (R105, R136): slots not yet made, post-modifies, the operation, the sequence. -/
def engIssue (free : Nat) (x0 : Engine) (op : Nat) : Engine × List EngEv :=
  match engReady free x0 with
  | (_, .no) => (x0, [])
  | (_, .stopIbp) => engStop x0 4 x0.pc
  | (x, .exc c d) =>
    if iOp (tget { val := 0, pois := false } x.pm x.pc).val.toNat = op then engException free x c d else (x0, [])
  | (x, .go w) =>
    if iOp w ≠ op then (x0, [])
    else
      let skip := decide (0 < x.repLeft) && decide (0 < x.repSsk)
      let hit := dbpHit x w skip
      let s0 := slotFlights x w 0 skip [] (!nbit x.slots 0) (!nbit x.slots 1)
      let s1 := slotFlights x w 1 skip [] (!nbit x.slots 2) (!nbit x.slots 3)
      let posts := postAll x w skip
      let pf := (postList w skip).flatMap (postFlights x posts)
      let cf := if op = 0x24 then
          let g := iVd w % 8
          [(2, Act.part g (fldMask 22 12) (agMove (agGet posts g) (sext 13 (nfld w 52 40))) true)]
        else computeFlights x w
      let x1 := if op = 0x08 ∨ op = 0x0A then
          let r := if op = 0x08 then iVd w % 4 else iVa w % 4
          { x with flights := x.flights.filter (fun fl => match fl.act with
            | .lanes .accv ws => !(ws.any (fun p => p.1 / 12 == r))
            | _ => true) }
        else x
      let x2 := addFlights (addFlights (addFlights x1 0 s0) 1 s1) 2 (pf ++ cf)
      let x3 := if op = 0x06 ∧ nbit (iMod w) 0 = false then
          addFlights x2 2 [(1, .part 0x10 (fldMask 11 0) (setFld 0 11 0
            ((fld x.twc 11 0 + (if iFmt w then 8 else 4) * fld x.twc 47 36) % twcHalf x.twc)) false)]
        else x2
      let x4 := wdkEv (noteKinds x3 w) w
      let r := issueRest free { x4.1 with slots := 0, skipIbp := false, retPath := false } w
      let y := r.1
      let ev := x4.2 ++ r.2
      if hit then
        let st := engStop y 5 x.pc
        (st.1, ev ++ st.2)
      else if y.stepping ∧ y.repLeft = 0 ∧ y.halting = false ∧ y.st = .running then
        let st := engStop y 6 x.pc
        (st.1, ev ++ st.2)
      else (y, ev)

/-- One slot's load or store of the instruction at PC, made ahead of the rest of it in the same issue cycle. `kind` is
LK or SK. -/
def engSlot (free : Nat) (x0 : Engine) (k : Nat) (load : Bool) (kind : Nat) (flips : List (BitVec 80)) : Engine :=
  match engReady free x0 with
  | (x, .go w) =>
    let sl := iSlot w k
    let bit := 2 * k + (if load then 0 else 1)
    if nbit x.slots bit then x0
    else if (if load then slLk sl else slSk sl) ≠ kind then x0
    else
      let skip := decide (0 < x.repLeft) && decide (0 < x.repSsk)
      let y := addFlights x k (slotFlights x w k skip flips load (!load))
      { y with slots := nset y.slots bit }
  | _ => x0

/-! ### Verdicts (R170 to R174, R680) -/

/-- Every lane of the engine changed by f: memory, registers, results in flight, queued copies, buffer entries. -/
def mapLane (f : Lane → Lane) (x : Engine) : Engine :=
  let g := fun (t : Tbl Lane) => tmap {} (fun _ l => f l) t
  { x with
    v := g x.v, accm := g x.accm, accv := g x.accv, f := f x.f, s := g x.s, dm := g x.dm
    vb := x.vb.map (fun e => { e with ws := e.ws.map f })
    raq := x.raq.map (fun q => (q.1, q.2.map (fun e => { e with ws := e.ws.map f })))
    flights := x.flights.map (fun fl => { fl with act := match fl.act with
      | .lanes r ws => .lanes r (ws.map (fun p => (p.1, f p.2)))
      | .store a ws o => .store a (ws.map f) o
      | .ftap a b c => .ftap (f a) (f b) (f c)
      | a => a }) }

/-- GOOD for v: bit v clears in every mask (R173). -/
def engGood (v : Nat) (x : Engine) : Engine :=
  if x.vids.getLsbD v then
    let m : BitVec 4 := ~~~ (BitVec.ofNat 4 (1 <<< v))
    { mapLane (fun l => { l with pend := l.pend &&& m }) x with
      vids := x.vids &&& m
      xfers := x.xfers.map (fun (t : Xfer) => if t.early = some v then { t with early := none } else t) }
  else x

/-- BAD for v: entries with bit v are dropped, what carries it is poisoned, XST.BAD and VBAD are raised, the queues
holding it are discarded, and its XFER ends with an error (R169, R174). -/
def engBad (v : Nat) (x : Engine) : Engine :=
  if x.vids.getLsbD v then
    let b : BitVec 4 := BitVec.ofNat 4 (1 <<< v)
    let has := fun (ls : List Lane) => ls.any (fun l => l.pend.getLsbD v)
    let y := { x with
      vb := x.vb.filter (fun e => !has e.ws)
      raq := x.raq.filter (fun q => !(q.2.any (fun e => has e.ws)))
      flights := x.flights.filter (fun fl => match fl.act with
        | .store _ ws _ => !has ws
        | _ => true)
      xfers := x.xfers.map (fun t => if t.early = some v then { t with err := true, early := none } else t) }
    { mapLane (fun l => if l.pend.getLsbD v then { l with pois := true, pend := l.pend &&& ~~~ b } else l) y with
      vids := x.vids &&& ~~~ b, bad := x.bad ||| b, vbad := x.vbad ||| b }
  else x

/-- The oldest buffer entry retires to memory once its mask is empty (R173). -/
def engRetire (x : Engine) : Engine :=
  match x.vb with
  | [] => x
  | e :: t => if pendOf e.ws = 0 then bxdObserve (dmPutAll { x with vb := t } e.addr e.ws) e.obs e.ws else x

/-- The reset of an engine as a unit: registers and pending state return to their reset values, memories stay, pending
words are poisoned, and the verdict buffer and IDs are freed (R112, R149, R598, R680). -/
def engUnitReset (x : Engine) (last : Nat) : Engine :=
  { ({} : Engine) with
    dm := tmap {} (fun _ l => if l.pend = 0 then l else { l with pois := true, pend := 0 }) x.dm
    pm := x.pm, ctl := x.ctl, wdt := x.wdt, lastrst := last
    ibp := x.ibp, dbp := x.dbp, xt := x.xt, cyc := x.cyc, st := .reset }

/-- Leaving RESET (R142): PC := START, and RUNNING if RUN is 1. HRST holds the engine. What ENG_STAT keeps through off stands
(R179). -/
def engLeave (x : Engine) : Engine :=
  if x.st = .reset ∧ bitOf x.ctl 1 = false then
    { x with pc := fld x.ctl 25 16, st := if bitOf x.ctl 0 then .running else .halted }
  else x

/-- What is in flight has landed and the engine is HALTED (R143). -/
def engHalted (free : Nat) (x : Engine) : Engine :=
  raDiscard { engDrain free x with st := .halted, halting := false }

end Sys2Proof.Machine
end

