-- ==== Sys2Proof/Machine/BankCore.lean ====
section
/-! DEFINITION. A block memory bank as a machine of its own: words, validity, remap and background-test redirection,
ATOMIC and ROTATE accesses, reservations, ownership, scrubbing, the background test and power (R184 to R226). -/

namespace Sys2Proof.Machine
open Sys2Proof

/-- A zero word with no poison. -/
def zeroWord : PWord := { val := 0, pois := false }

/-- The panel of bank n, and whether it is its tile's true dual-port bank (R79, R185). -/
def bankPanel (n : Nat) : Nat := n / 96
def bankDual (n : Nat) : Bool := n % 8 == 0

def bankMode (b : Bank) : Bool := bitOf b.cfg 0
def bankCur (b : Bank) : Nat := fld b.pwr 5 4
def bistPhase (b : Bank) : Nat := fld b.bist 59 58
def bistRegion (b : Bank) : Nat := fld b.bist 57 53

/-- The remap entry in force for word a (R207). -/
def remapOf (b : Bank) (a : Nat) : Option Nat :=
  (List.range 4).find? (fun k => bitOf (tget 0 b.remap k) 63 && fld (tget 0 b.remap k) 12 0 == a)

/-- The remap entries in force for word a: more than one where software or a defective spare word has set a second (log entry 49). -/
def remapsOf (b : Bank) (a : Nat) : List Nat :=
  (List.range 4).filter (fun k => bitOf (tget 0 b.remap k) 63 && fld (tget 0 b.remap k) 12 0 == a)

/-- The word put in the array, or in the spare words that serve it (R207). -/
def arrayPut (b : Bank) (a : Nat) (w : PWord) : Bank :=
  match remapsOf b a with
  | [] => { b with words := tset zeroWord b.words a w }
  | ks => { b with spare := ks.foldl (fun t k => tset zeroWord t k w) b.spare }

/-- Whether an access to word a goes to the save buffer of the background test (R213); `wr` for a write. -/
def inBuffer (b : Bank) (a : Nat) (wr : Bool) : Bool :=
  bistPhase b != 0 && a / 256 == bistRegion b && (tget false b.inBuf (a % 256) || (wr && bistPhase b == 1))

/-- The word stored for address a, wherever it is held, validity aside. -/
def rawGet (b : Bank) (a : Nat) : PWord :=
  if inBuffer b a false then tget zeroWord b.buf (a % 256)
  else match remapOf b a with
    | some k => tget zeroWord b.spare k
    | none => tget zeroWord b.words a

/-- The word put where address a is held. -/
def rawPut (b : Bank) (a : Nat) (w : PWord) : Bank :=
  if inBuffer b a true then
    { b with buf := tset zeroWord b.buf (a % 256) w, inBuf := tset false b.inBuf (a % 256) true }
  else arrayPut b a w

def rowValid (b : Bank) (a : Nat) : Bool := tget false b.valid (a / 8)

/-- The first write into an invalid row makes it valid and zeroes it (R205). -/
def makeValid (b : Bank) (a : Nat) : Bank :=
  if rowValid b a then b
  else
    let r := a / 8
    { (List.range 8).foldl (fun b i => rawPut b (8 * r + i) zeroWord) b with valid := tset false b.valid r true }

/-- A word written: its row becomes valid, reservations on it clear, and a correction waiting for it is dropped
(R196, R203, R205). -/
def bankStore (b : Bank) (a : Nat) (w : PWord) : Bank :=
  let c := rawPut (makeValid b a) a w
  { c with resv := c.resv.filter (fun r => r.word != a), wbs := c.wbs.filter (fun p => p.1 != a) }

/-- A remap entry filled for word a with what its read gave, lowest free first (R207, R208, R214); the copy clears the word's
reservations (R196). None where no entry is free. -/
def remapFill (b : Bank) (a src : Nat) (w : PWord) : Option Bank :=
  match (List.range 4).find? (fun k => !bitOf (tget 0 b.remap k) 63) with
  | none => none
  | some k =>
    some { b with
      spare := tset zeroWord b.spare k w
      remap := tset 0 b.remap k (mkWord [(63, 63, 1), (59, 58, src), (12, 0, a)])
      resv := b.resv.filter (fun r => r.word != a) }

/-- A read of word a through the code, with its records, its write-back and automatic remap (R202, R203, R208). -/
def bankLook (b : Bank) (free a : Nat) (flip : BitVec 80) : PWord × Bank :=
  if rowValid b a = false then (zeroWord, b)
  else
    let w := rawGet b a
    let r := eccRead free w flip
    match eccKind free flip with
    | .clean => (r, b)
    | .corrected =>
      let e := setFld (satFld b.err 63 48 1) 12 0 a
      let two := (bitsOf 80 flip.toNat).length = 2
      let again := b.ceSeen = true ∧ fld b.err 12 0 = a
      let c := { b with err := e, ceSeen := true, wbs := b.wbs ++ [(a, r)] }
      if bitOf b.cfg 4 = true ∧ (two ∨ again) then (r, (remapFill c a 1 r).getD c) else (r, c)
    | .uncorrectable =>
      (r, { b with err := setBit (setFld (satFld b.err 47 40 1) 28 16 a) 36 true, wbs := b.wbs ++ [(a, r)] })

/-- A copy of a remap entry reads a stored word through the code (R202, R207): what it gives, and the record of an error; what it
gives is written with fresh check bits, so that nothing waits to be written back. -/
def copyRead (b : Bank) (free a : Nat) (w : PWord) (flip : BitVec 80) : PWord × Bank :=
  if rowValid b a = false then (w, b)
  else (eccRead free w flip, match eccKind free flip with
    | .clean => b
    | .corrected => { b with err := setFld (satFld b.err 63 48 1) 12 0 a, ceSeen := true }
    | .uncorrectable => { b with err := setBit (setFld (satFld b.err 47 40 1) 28 16 a) 36 true })

/-- Whether the read found what R202 reports to the fault log. -/
def bankUe (b : Bank) (free a : Nat) (flip : BitVec 80) : Bool :=
  rowValid b a && eccKind free flip == .uncorrectable

/-- Byte enables as a mask of bits. -/
def beMask (be : BitVec 8) : Word :=
  (List.range 8).foldl (fun m i => if be.getLsbD i then m ||| fldMask (8 * i + 7) (8 * i) else m) 0

/-- A plain or merge write (R192, R197): the poison of a merge survives unless all eight bytes are enabled. -/
def bankMerge (b : Bank) (free a : Nat) (w : PWord) (be : BitVec 8) (flip : BitVec 80) : Bank :=
  if be = 0xFF then bankStore b a w
  else
    let r := bankLook b free a flip
    let m := beMask be
    bankStore r.2 a { val := (r.1.val &&& ~~~ m) ||| (w.val &&& m), pois := r.1.pois || w.pois }

/-- FADD and SWAP: the old word and the bank (R195, R197). -/
def bankFaddOp (b : Bank) (free a : Nat) (w : PWord) (flip : BitVec 80) : PWord × Bank :=
  let r := bankLook b free a flip
  (r.1, bankStore r.2 a { val := r.1.val + w.val, pois := r.1.pois || w.pois })

def bankSwapOp (b : Bank) (free a : Nat) (w : PWord) (flip : BitVec 80) : PWord × Bank :=
  let r := bankLook b free a flip
  (r.1, bankStore r.2 a w)

/-- A reserve-read: an earlier reservation of the requester goes, the oldest goes when four are held (R196). -/
def bankReserveOp (b : Bank) (free a req : Nat) (flip : BitVec 80) : PWord × Bank :=
  let r := bankLook b free a flip
  let others := r.2.resv.filter (fun x => x.req != req)
  let kept := if 4 ≤ others.length then others.drop 1 else others
  (r.1, { r.2 with resv := kept ++ [{ req := req, word := a }] })

/-- A conditional write: whether it wrote, and the bank; it reads its word through the code first (R189, R195). -/
def bankCondOp (b : Bank) (free a req : Nat) (w : PWord) (flip : BitVec 80) : Bool × Bank :=
  let c := (bankLook b free a flip).2
  if c.resv.any (fun x => x.req == req && x.word == a) then (true, bankStore c a w) else (false, c)

/-- A word rotated right by 8 o bits (R194). -/
def rotBytes (x : Word) (o : Nat) : Word := x.rotateRight (8 * o)

/-- Whether an owner accepts a requester's ID (R198). -/
def ownerAccepts (o : Owner) (init : Nat) : Bool :=
  match o.kind with
  | 0 => init < 16 || init == 0x11
  | 1 => decide (0x2000 + o.sel * 64 ≤ init) && decide (init < 0x2040 + o.sel * 64)
  | 2 => decide (0x1000 + o.sel * 8 ≤ init) && decide (init < 0x1008 + o.sel * 8)
  | _ => (init &&& o.mask) == (o.sel &&& o.mask)

/-- Whether the owner gives the bank's own fabric the use of it (R198). -/
def ownerFabric (o : Owner) (n : Nat) : Bool := o.kind == 1 && o.sel == bankPanel n

/-- Whether a fabric access reads its word through the code (R187, R189, R194, R202). -/
def fabricReads (b : Bank) (n i : Nat) (we : Bool) (op : Nat) (be : BitVec 8) : Bool :=
  (bankDual n || we == decide (i = 1)) && (op == 0 || !bankMode b) &&
  (if we then op != 0 || be != 0xFF else op == 0 || op == 3)

/-- One fabric access on interface i (R187, R194, R195, R198): the answer and the bank. -/
def fabricAccess (b : Bank) (n i free : Nat) (we : Bool) (op addr : Nat) (w : PWord) (be : BitVec 8) (flip : BitVec 80) :
    FabOut × Bank :=
  let a := addr / 8 % 8192
  let o := addr % 8
  let err : FabOut × Bank := ({ rdata := zeroWord, rstat := 3 }, b)
  let fab := 0x10000
  if bankDual n = false ∧ we ≠ decide (i = 1) then err
  else if we = false ∧ (op = 1 ∨ op = 2) then err
  else if bankMode b ∧ op ≠ 0 then err
  else if we = false ∧ op = 0 then
    let r := bankLook b free a flip
    ({ rdata := if bankMode b then { r.1 with val := rotBytes r.1.val o } else r.1, rstat := 0 }, r.2)
  else if we = false then
    let r := bankReserveOp b free a fab flip
    ({ rdata := r.1, rstat := 0 }, r.2)
  else if op = 0 then
    let w' := if bankMode b then { w with val := w.val.rotateLeft (8 * o) } else w
    let be' := if bankMode b then be.rotateLeft o else be
    ({ rdata := zeroWord, rstat := 0 }, bankMerge b free a w' be' flip)
  else if op = 1 then let r := bankFaddOp b free a w flip; ({ rdata := r.1, rstat := 0 }, r.2)
  else if op = 2 then let r := bankSwapOp b free a w flip; ({ rdata := r.1, rstat := 0 }, r.2)
  else let r := bankCondOp b free a fab w flip; ({ rdata := zeroWord, rstat := if r.1 then 0 else 1 }, r.2)

/-- A read accepted at the edge of the other interface's plain write to its word returns the old value (R188, R190); the word
itself stays as that write left it, and a reservation it would place does not outlive the write (log entry 50). -/
def fabricOld (b : Bank) (l : FabLast) (free a o : Nat) (flip : BitVec 80) : FabOut × Bank :=
  let rot := fun (w : PWord) => if bankMode b then { w with val := rotBytes w.val o } else w
  if l.valid = false then ({ rdata := zeroWord, rstat := 0 }, b)
  else
    let cur := rawGet b a
    let r := bankLook (rawPut b a l.old) free a flip
    let c := rawPut r.2 a cur
    ({ rdata := rot r.1, rstat := 0 }, { c with wbs := r.2.wbs.filter (fun p => p.1 != a), resv := b.resv })

/-- What an access means for one of the other interface at the same edge and on the same word (R189, R190): it is held off where
either is a merge write or an atomic. -/
inductive Meet where
  | apart | held | oldRead | lostWrite
  deriving DecidableEq, Repr

def fabricMeet (b : Bank) (i : Nat) (same we : Bool) (op addr : Nat) (be : BitVec 8) : Meet :=
  match b.last with
  | none => .apart
  | some l =>
    let plain := we && op == 0 && be == 0xFF
    if same = false ∨ l.i = i ∨ l.word ≠ addr / 8 % 8192 then .apart
    else if (l.write && !l.plain) || (we && !plain) then .held
    else if l.write = false then .apart
    else if we = false then .oldRead
    else if i = 0 then .lostWrite else .apart

/-- One fabric access, alone or at the same edge as the last one of the other interface. -/
def fabricTake (b : Bank) (n i free : Nat) (same we : Bool) (op addr : Nat) (w : PWord) (be : BitVec 8) (flip : BitVec 80) :
    FabOut × Bank :=
  let a := addr / 8 % 8192
  let r := fabricAccess b n i free we op addr w be flip
  let r1 := if r.1.rstat = 3 then r else match fabricMeet b i same we op addr be, b.last with
    | .oldRead, some l => fabricOld b l free a (addr % 8) flip
    | .lostWrite, _ => (r.1, b)
    | _, _ => r
  let l : FabLast :=
    { i := i, write := we && r.1.rstat != 3, plain := op == 0 && be == 0xFF, word := a, old := rawGet b a, valid := rowValid b a }
  (r1.1, { r1.2 with last := some l })

/-! ### Registers -/

/-- BNK_CFG written (R193, R219): MODE changes only under HUB, and a change clears the reservations. -/
def bankWriteCfg (b : Bank) (v : Word) : Bank :=
  let keep := fldMask 47 40 ||| fldMask 9 8 ||| fldMask 4 4
  let c1 := (b.cfg &&& ~~~ keep) ||| (v &&& keep)
  if b.own.kind = 0 ∧ bitOf v 0 ≠ bitOf b.cfg 0 then
    { b with cfg := setBit c1 0 (bitOf v 0), resv := [] }
  else { b with cfg := c1 }

def ownerOf (v : Word) : Owner := { kind := fld v 49 48, sel := fld v 31 16, mask := fld v 47 32 }
def ownerWord (o : Owner) : Word := mkWord [(49, 48, o.kind), (47, 32, o.mask), (31, 16, o.sel)]

/-- SEL is in range for its KIND (R198, R199). -/
def ownerLegal (o : Owner) : Bool :=
  (o.kind != 1 || decide (o.sel < 32)) && (o.kind != 2 || decide (o.sel < 480))

/-- BNK_OWN written with a legal owner: a handover starts, or its target is replaced (R199). -/
def bankWriteOwn (b : Bank) (o : Owner) : Bank :=
  if b.busy then { b with target := o }
  else if o = b.own then b
  else { b with target := o, busy := true }

/-- A handover ends: reservations clear and the last target written owns the bank (R199). The fabric interfaces of a bank that
goes from its panel to another owner drive zero (R186). -/
def bankSwitch (b : Bank) : Bank :=
  { b with own := b.target, busy := false, resv := [], outs := if b.target = b.own then b.outs else [] }

/-- A bank given to an owner at the end of a load, or to HUB (R200, R389, R393, R419). -/
def bankGive (b : Bank) (o : Owner) : Bank := { b with own := o, target := o, busy := false, resv := [], outs := [] }

/-- BNK_OWN as it reads (R220). -/
def bankOwnWord (b : Bank) : Word := setBit (ownerWord (if b.busy then b.target else b.own)) 63 b.busy

/-- The copy a valid remap entry's clearing makes (R207). -/
def remapBack (b : Bank) (k free : Nat) (flip : BitVec 80) : Bank :=
  let e := tget 0 b.remap k
  if bitOf e 63 then
    let a := fld e 12 0
    let r := copyRead b free a (tget zeroWord b.spare k) flip
    let c := { r.2 with remap := tset 0 b.remap k (mkWord [(12, 0, a)]), spare := tset zeroWord b.spare k zeroWord }
    { c with words := tset zeroWord c.words a r.1
             resv := c.resv.filter (fun r => r.word != a), wbs := c.wbs.filter (fun p => p.1 != a) }
  else b

/-- V set in entry k for word a: the word is copied to the spare (R207, R223). -/
def remapTo (b : Bank) (k a free : Nat) (flip : BitVec 80) : Bank :=
  if bitOf (tget 0 b.remap k) 63 then b
  else
    let w := match remapOf b a with
      | some j => tget zeroWord b.spare j
      | none => tget zeroWord b.words a
    let r := copyRead b free a w flip
    { r.2 with
      spare := tset zeroWord b.spare k r.1
      remap := tset 0 b.remap k (mkWord [(63, 63, 1), (59, 58, 0), (12, 0, a)])
      resv := b.resv.filter (fun r => r.word != a) }

/-- A write of BNK_REMAPk (R207, R223): SRC 2 ignores it; a change of ADDR while V is 1 is ignored. -/
def bankWriteRemap (b : Bank) (k : Nat) (v : Word) (free : Nat) (flip : BitVec 80) : Bank :=
  let e := tget 0 b.remap k
  if bitOf e 63 then
    if fld e 59 58 = 2 then b
    else if bitOf v 63 = false then
      if fld v 12 0 = fld e 12 0 then remapBack b k free flip else b
    else b
  else if bitOf v 63 then remapTo b k (fld v 12 0) free flip
  else { b with remap := tset 0 b.remap k (mkWord [(12, 0, fld v 12 0)]) }

/-! ### The scrubber and the background test -/

/-- The valid words at or after a position that the scrubber visits (R210). -/
def scrubNext (b : Bank) (p : Nat) : Option Nat :=
  let ok := fun a => rowValid b a && !(bistPhase b != 0 && a / 256 == bistRegion b)
  let rows := (b.valid.map (·.1)).filter (fun r => decide (p / 8 ≤ r))
  (rows.flatMap (fun r => (List.range 8).map (fun i => 8 * r + i))).find? (fun a => decide (p ≤ a) && ok a)

/-- A lap ends (R211); one longer than LAPMAX ms has set STARVE. -/
def lapEnd (b : Bank) (us : Nat) : Bank :=
  let w := setFld (incFld b.scrub 39 32) 23 0 (min us 0xFFFFFF)
  { b with scrub := if 1000 * max 1 (fld b.scrub 47 40) < us then setBit w 62 true else w, scrubPos := 0 }

/-- BNK_SCRUB's enable taken away abandons the lap (R211). -/
def scrubSet (b : Bank) (w : Word) : Bank := { b with scrub := w, scrubPos := if bitOf w 63 then b.scrubPos else 0 }

/-- The word under a March step and the kind of its access (R212): the six elements of March C−. -/
def marchWord (pos : Nat) : Nat × Bool :=
  if pos < 256 then (pos, false)
  else if pos < 2304 then
    let q := pos - 256
    let e := q / 512
    let j := q % 512
    (if e < 2 then j / 2 else 255 - j / 2, j % 2 == 0)
  else (255 - (pos - 2304), true)

/-- Failing words found by a March are remapped or noted (R214). -/
def marchEnd (b : Bank) : Bank :=
  b.bistFails.foldl (fun c a =>
    if bitOf c.cfg 4 then
      match remapFill c a 3 (tget zeroWord c.words a) with
      | some d => d
      | none => { c with bist := setBit c.bist 60 true }
    else { c with bist := setBit c.bist 60 true }) b

/-- Word j of the region under test copied back from the buffer (R212, R213). -/
def restoreWord (b : Bank) (j : Nat) : Bank :=
  if tget false b.inBuf j then
    let a := 256 * bistRegion b + j
    let w := tget zeroWord b.buf j
    let c := { b with inBuf := tset false b.inBuf j false, buf := tset zeroWord b.buf j zeroWord
                      resv := b.resv.filter (fun r => r.word != a) }
    arrayPut c a w
  else b

/-- What follows a region's restore (R212, R214): a region that failed, MODE 0 or the last region of one pass ends the
test; else the next region begins. -/
def regionDone (b : Bank) : Bank :=
  let failed := !b.bistFails.isEmpty
  let last := bistRegion b == 31
  let b1 := { b with bistFails := [], bistPos := 0 }
  let b2 := if last ∧ failed = false then { b1 with bist := incFld b1.bist 47 32 } else b1
  if failed ∨ fld b.bist 63 62 = 0 ∨ (last ∧ fld b.bist 63 62 = 1) then
    { b2 with bist := setFld (setFld b2.bist 63 62 0) 59 58 0 }
  else
    { b2 with bist := setFld (setFld b2.bist 57 53 (bistRegion b + 1)) 59 58 1 }

/-- The region under test is restored at once, before an event that must wait for it (R215); the test stays at rest
with MODE as it is. Where only region 31's restore was left, the pass is complete (R225). -/
def bistFinish (b : Bank) : Bank :=
  if bistPhase b = 0 then b
  else
    let c := (List.range 256).foldl restoreWord (if bistPhase b = 2 then marchEnd b else b)
    let w := if bistPhase b = 3 ∧ bistRegion b = 31 ∧ b.bistFails.isEmpty = true then incFld c.bist 47 32 else c.bist
    let d := { c with bistFails := [], bistPos := 0, bist := setFld w 59 58 0 }
    if b.bistFails.isEmpty then d else { d with bist := setFld d.bist 63 62 0 }

/-- One access of the background test (R212 to R214). -/
def bistAdvance (b : Bank) (mismatch : Bool) (flip : BitVec 80) (free : Nat) : Bank :=
  match bistPhase b with
  | 1 =>
    match (List.range 256).find? (fun j => !tget false b.inBuf j) with
    | none => { b with bist := setFld b.bist 59 58 2, bistPos := 0 }
    | some j =>
      let r := bankLook b free (256 * bistRegion b + j) flip
      { r.2 with buf := tset zeroWord r.2.buf j r.1, inBuf := tset false r.2.inBuf j true }
  | 2 =>
    let w := marchWord b.bistPos
    let a := 256 * bistRegion b + w.1
    let b1 := if mismatch ∧ w.2 = true then
        let f := if b.bistFails.isEmpty then setFld b.bist 28 16 a else b.bist
        { b with bist := setBit f 61 true, bistFails := if b.bistFails.contains a then b.bistFails else b.bistFails ++ [a] }
      else b
    if b.bistPos = 2559 then
      let c := marchEnd b1
      { c with bistPos := 0, bist := setFld c.bist 59 58 3 }
    else { b1 with bistPos := b.bistPos + 1 }
  | 3 =>
    match (List.range 256).find? (fun j => tget false b.inBuf j) with
    | none => regionDone b
    | some j => restoreWord b j
  | _ => if fld b.bist 63 62 = 1 ∨ fld b.bist 63 62 = 2 then
      { b with bist := setFld b.bist 59 58 1, bistPos := 0, bistFails := [], inBuf := [], buf := [] }
    else b

/-! ### Power and resets -/

/-- All valid bits clear; what the rows held is gone, and a lap under way is abandoned (R205, R211). -/
def bankClear (b : Bank) : Bank :=
  { b with valid := [], words := [], buf := [], inBuf := [], wbs := [], resv := [], scrubPos := 0
           spare := [], bistPos := 0, bistFails := [], bist := setFld b.bist 59 58 0 }

/-- A change of the bank's power state begins (R216, R217): the background test finishes its region, and leaving ON
clears the reservations and abandons the scrub lap. -/
def bankPowerTo (b : Bank) (t : Nat) : Bank :=
  let c := bistFinish b
  { c with pwr := setFld c.pwr 5 4 3, next := t, prev := if bankCur b = 3 then b.prev else bankCur b
           resv := if t = 0 then c.resv else [], scrubPos := if t = 0 then c.scrubPos else 0 }

/-- The change completes; leaving OFF clears the valid bits (R216, R217). -/
def bankPowerDoneOp (b : Bank) : Bank :=
  if bankCur b = 3 then
    let c := { b with pwr := setFld b.pwr 5 4 b.next, prev := 0 }
    if b.prev = 2 then bankClear c else c
  else b

/-- The bank's registers after a reset of WARM reach, or UNIT of its group: stream fields return to the stream's values,
software entries of the remap table are copied back, and the rows clear where CLRREACH says so (R206, R207, R218).
`clear` says whether they do. -/
def bankUnitReset (b : Bank) (clear : Bool) : Bank :=
  let b0 := if clear then bankClear b else bistFinish b
  let b1 := (List.range 4).foldl (fun c k =>
    if fld (tget 0 c.remap k) 59 58 = 2 then c
    else if clear then { c with remap := tset 0 c.remap k 0 } else
      let d := remapBack c k 0 0
      { d with remap := tset 0 d.remap k 0 }) b0
  let b2 := if bankCur b = 2 ∨ (bankCur b = 3 ∧ b.prev = 2) then bankClear b1 else b1
  { b2 with
    cfg := (b.imgCfg &&& (fldMask 36 32 ||| fldMask 9 8 ||| fldMask 0 0)) ||| 0x0000040000000010
    own := b.imgOwn, target := b.imgOwn, busy := false, resv := [], outs := if b.imgOwn = b.own then b.outs else [], last := none
    pwr := 0x4, next := 0, prev := 0, woken := false
    scrub := 0x803F640000000000, scrubPos := 0, bist := 0, bistPos := 0, bistFails := [], inBuf := [], buf := [] }

/-- Whether a reset reach (2 PANEL, 1 UNIT, 4 WARM, 5 and wider COLD) clears the rows (R205, R206). -/
def bankClears (b : Bank) (reach : Nat) : Bool :=
  decide (5 ≤ reach) || (reach == 4 && decide (1 ≤ fld b.cfg 9 8)) || (reach == 2 && decide (2 ≤ fld b.cfg 9 8))
  || (reach == 1 && fld b.cfg 9 8 == 3)

end Sys2Proof.Machine
end

