-- ==== Sys2Proof/Machine/Packet.lean ====
section
/-! DEFINITION. What a request packet addresses and carries: words, byte enables, data, and its legality (R233 to R236). -/

namespace Sys2Proof.Machine
open Sys2Proof

def Req.isRead (r : Req) : Bool := r.cmd == .rd || r.cmd == .rde
def Req.isWri (r : Req) : Bool := r.cmd == .wri1 || r.cmd == .wri2 || r.cmd == .wri4 || r.cmd == .wri8
def Req.isWrite (r : Req) : Bool := r.cmd == .wr || r.isWri
def Req.isAtomic (r : Req) : Bool := r.cmd == .fadd || r.cmd == .swap || r.cmd == .rsvrd || r.cmd == .cwr

/-- The bytes a short write carries. -/
def wriSize (c : NCmd) : Nat :=
  match c with
  | .wri1 => 1
  | .wri2 => 2
  | .wri4 => 4
  | _ => 8

def Req.a (r : Req) : Nat := r.h.addr.toNat

/-- The first 64-bit word of a packet's data units, or the word of a short command (R235). -/
def Req.word0 (r : Req) : Nat := if r.isRead || r.cmd == .wr then r.a / 32 * 4 else r.a / 8

/-- How many 64-bit words the request addresses. -/
def Req.nWords (r : Req) : Nat := if r.isRead || r.cmd == .wr then 4 * r.h.len else 1

/-- The source interface's own checks of a packet (R235): a unit range inside one 512-byte block, a length in range,
an aligned short write. -/
def Req.legal (r : Req) : Bool :=
  if r.isRead || r.cmd == .wr then
    decide (1 ≤ r.h.len) && decide (r.h.len ≤ 16) && (r.a / 512 == (r.a / 32 * 32 + 32 * r.h.len - 1) / 512)
  else (r.h.len == 0) && (!r.isWri || r.a % wriSize r.cmd == 0)

/-- IMM as a word with its mark (R234). -/
def Req.imm (r : Req) : PWord := { val := r.h.imm, pois := r.h.immPois }

/-- The bytes of word w (numbered from word0) a write enables (R236). -/
def Req.be (r : Req) (w : Nat) : BitVec 8 :=
  if r.cmd = .wr then
    let u := w / 4
    if u = 0 then BitVec.ofNat 8 (r.h.imm.toNat >>> (8 * (w % 4)))
    else if u + 1 = r.h.len then BitVec.ofNat 8 (r.h.imm.toNat >>> (32 + 8 * (w % 4)))
    else 0xFF
  else BitVec.ofNat 8 ((2 ^ wriSize r.cmd - 1) <<< (r.a % 8))

/-- The data of word w of a write (R236). -/
def Req.dataWord (r : Req) (w : Nat) : PWord :=
  if r.cmd = .wr then r.data.getD w zeroWord
  else { val := BitVec.ofNat 64 (r.h.imm.toNat <<< (8 * (r.a % 8))), pois := r.h.immPois }

/-- A word merged under byte enables; the old mark survives unless all eight bytes are enabled (R111, R197). -/
def mergeWord (old new : PWord) (be : BitVec 8) : PWord :=
  if be = 0xFF then new
  else
    let m := beMask be
    { val := (old.val &&& ~~~ m) ||| (new.val &&& m), pois := old.pois || new.pois }

/-- The class of an initiator in the rights field (R233); 7 for an ID that names none. -/
def initClass (i : Nat) : Nat :=
  if i < 16 then 0
  else if i = 0x10 then 1
  else if i = 0x11 then 2
  else if 0x12 ≤ i ∧ i ≤ 0x15 then 3
  else if 0x1000 ≤ i ∧ i < 0x1F00 then 4
  else if 0x2000 ≤ i ∧ i < 0x2800 then 5
  else if 0x3000 ≤ i ∧ i < 0x3080 then 6
  else 7

/-- A response to a request: it carries the requester and the tag, and comes from the slot the request went to (R237). -/
def Req.resp (r : Req) (kind : RKind) : Resp :=
  { init := r.h.init.toNat, tag := r.h.tag.toNat, kind := kind, cls := r.h.cls, addr := r.a, id := r.id, place := r.slot }

/-- The class a response travels in: a C0 request's in C1, every other in its request's (R237). -/
def Resp.travels (p : Resp) : Nat := if p.cls = 0 then 1 else p.cls

/-- An ERR response to a request (R238); the guard's reason is in bits 15:8 (R320). -/
def Req.err (r : Req) (code : Nat) : Resp := { r.resp .err with code := code }

/-- The ERR with which the requester's own interface answers a request it does not inject (R235, R238, R243). -/
def Req.refusal (r : Req) (code : Nat) : Resp := { r.err code with len := r.h.len, own := true }

/-- A write's acknowledgement. -/
def Req.ack (r : Req) : Resp := r.resp .wra

/-- A read's data. -/
def Req.rdr (r : Req) (ws : List PWord) : Resp := { r.resp .rdr with data := ws }

/-- An atomic's answer. -/
def Req.atr (r : Req) (ws : List PWord) (code : Nat) : Resp := { r.resp .atr with code := code, data := ws }

/-- The bank, the engine and the word of an engine's memories (program memory from 2,048 up) a request starts at (R25). -/
def reqBank (r : Req) : Nat := (r.a - 0x10000000000) / 0x10000
def reqEng (r : Req) : Nat := (r.a - 0x11000000000) / 0x8000
def reqEngWord (r : Req) : Nat := r.word0 % 4096

end Sys2Proof.Machine
end

