-- ==== Sys2Proof/Machine/GuardCore.lean ====
section
/-! DEFINITION. Where external addresses lie, and a memory guard with its controller: stored lines, the commands to the
devices, counters and their tree, the metadata cache, reads, writes, re-encryption, rebuilds and the failure matrix (R271 to
R320). -/

namespace Sys2Proof.Machine
open Sys2Proof

/-! ### From address to device -/

/-- The interleave of external memory: s = log2 of the ways, the groups per bank, the controller-select masks, and the seven
masks of each controller (R276 to R280). -/
structure MemMap where
  s : Nat
  gb : Nat
  gsel : List Nat
  maps : List (List Nat)
  deriving DecidableEq, Repr

/-- Groups per bank by density and width mode (R280). -/
def groupsPerBank (cfg : Word) : Nat :=
  let k := fld cfg 35 34 + fld cfg 33 33
  if k = 0 then 58254 else if k = 1 then 116508 else 233016

def MemMap.k (mm : MemMap) : Nat := mm.s + 7

/-- Parity of the bits of x that mask m selects. -/
def parity (x m : Nat) : Nat := (bitsOf 48 (x &&& m)).length % 2

/-- A mask as R277 fixes it, over address bits: the one of select bit i. -/
def MemMap.fixed (mm : MemMap) (i raw : Nat) : Nat :=
  let high := ((raw <<< 6) >>> (9 + mm.k)) <<< (9 + mm.k)
  high % 2 ^ (34 + mm.s) + 1 <<< (9 + i)

/-- The mask of select bit i at controller m: CS0 to CS(s - 1) are common, the seven of the location are its own. -/
def MemMap.mask (mm : MemMap) (m i : Nat) : Nat :=
  mm.fixed i (if i < mm.s then mm.gsel.getD i 0 else (mm.maps.getD m []).getD (i - mm.s) 0)

/-- The place of a byte address within its slice: controller within the slice, bank, group, line (R278, R306). -/
structure MemLoc where
  sel : Nat
  bank : Nat
  group : Nat
  line : Nat
  deriving DecidableEq, Repr

/-- The decode of R278: offset off within a slice. -/
def MemMap.locate (mm : MemMap) (slice off : Nat) : MemLoc :=
  let sel := (List.range mm.s).foldl (fun x i => x + parity off (mm.mask 0 i) <<< i) 0
  let at_ := fun i => parity off (mm.mask (slice * 2 ^ mm.s + sel) (mm.s + i))
  let ch := at_ 0 + 2 * at_ 1 + 4 * at_ 2
  let bg := at_ 3 + 2 * at_ 4
  let ba := at_ 5 + 2 * at_ 6
  { sel := sel, bank := 16 * ch + 4 * bg + ba, group := off >>> (9 + mm.k), line := off / 64 % 8 }

/-- Where byte i of a line lies in its bank, with its row and column (R278). -/
def MemLoc.offset (l : MemLoc) (i : Nat) : Nat := 576 * l.group + 72 * l.line + i
def MemLoc.row (l : MemLoc) (i : Nat) : Nat := l.offset i / 2048
def MemLoc.col (l : MemLoc) (i : Nat) : Nat := l.offset i % 2048

/-- The byte address of a line: the inverse of `locate`, in the slice of controller m. -/
def MemMap.address (mm : MemMap) (m bank group line : Nat) : Nat :=
  let w := 2 ^ mm.s
  let high := group <<< (9 + mm.k)
  let want := (List.range mm.s).map (fun i => (m % w) / 2 ^ i % 2) ++
    [bank / 16 % 2, bank / 32 % 2, bank / 64 % 2, bank / 4 % 2, bank / 8 % 2, bank % 2, bank / 2 % 2]
  let low := (List.range mm.k).foldl (fun x i =>
    x + ((want.getD i 0 + parity high (mm.mask m i)) % 2) <<< (9 + i)) 0
  (m / w) * 2 ^ (34 + mm.s) + high + low + line * 64

/-- Groups reserved and left by the guard (R305). -/
def guardGroups (gb : Nat) : Nat := (gb + 55) / 56
def dataGroups (gb : Nat) : Nat := gb - guardGroups gb

/-- The sizes N0 to NL of the levels of the metadata tree (R307). -/
def levelsFrom : Nat → Nat → List Nat
  | 0, n => [n]
  | fuel + 1, n => if n ≤ 8 then [n] else n :: levelsFrom fuel ((n + 7) / 8)
def treeLevels (gb : Nat) : List Nat := levelsFrom 12 (16 * dataGroups gb)

/-- The first metadata index of level l. -/
def levelBase (gb l : Nat) : Nat := ((treeLevels gb).take l).foldl (· + ·) 0

/-- Level and index within it of metadata line j. -/
def metaPlace (gb j : Nat) : Nat × Nat :=
  match (List.range (treeLevels gb).length).find? (fun l => decide (j < levelBase gb (l + 1))) with
  | some l => (l, j - levelBase gb l)
  | none => ((treeLevels gb).length, 0)

/-- The parent of metadata line j: its metadata line (none for the root) and the slot (R307). -/
def metaParent (gb j : Nat) : Option Nat × Nat :=
  let p := metaPlace gb j
  if p.1 + 1 < (treeLevels gb).length then (some (levelBase gb (p.1 + 1) + p.2 / 8), p.2 % 8) else (none, p.2)

/-- The metadata lines on the path of page P, counter block first. -/
def metaPath (gb page : Nat) : List Nat :=
  (List.range (treeLevels gb).length).map (fun l => levelBase gb l + page / 8 ^ l)

/-- A controller with its guard during one event: what it answers, the alarms it raises, and the addresses of lines it
reports to the fault log as MCUE (R607, R612). -/
structure GS where
  m : Nat
  mm : MemMap
  now : Nat
  free : Nat
  mc : Mc
  g : Guard
  resps : List Resp := []
  alarms : List Nat := []
  logs : List Nat := []
  deriving DecidableEq, Repr

def gState (g : Guard) : Nat := fld g.stat 63 60
def mcState (c : Mc) : Nat := fld c.stat 63 60
def mcSet (c : Mc) (st : Nat) : Mc := { c with stat := setFld c.stat 63 60 st }
def grdSet (g : Guard) (st : Nat) : Guard := { g with stat := setFld g.stat 63 60 st }

def GS.alarm (x : GS) (c : Nat) : GS := { x with alarms := x.alarms ++ [c] }
def GS.log (x : GS) (d : Nat) : GS := { x with logs := x.logs ++ [d] }
def GS.answer (x : GS) (r : Resp) : GS := { x with resps := x.resps ++ [r] }

/-- The page and local number of a location (R306). -/
def locPage (l : MemLoc) : Nat := (128 * l.group + l.bank) / 8
def locNum (l : MemLoc) : Nat := (128 * l.group + l.bank) * 8 + l.line

/-- Address bits 36:6 of local data line n, and of metadata line j. -/
def GS.dataAddr (x : GS) (n : Nat) : Nat :=
  let gb := n / 8
  x.mm.address x.m (gb % 128) (gb / 128) (n % 8) / 64 % 2 ^ 31
def GS.metaAddr (x : GS) (j : Nat) : Nat :=
  x.mm.address x.m (j / 8 % 128) (dataGroups x.mm.gb + j / 1024) (j % 8) / 64 % 2 ^ 31

/-! ### Counters and the cache -/

def minorOf (g : Guard) (n : Nat) : Nat := tget 127 g.minors n

/-- MAJOR of a page: its own where written since, else that of the newest rebuild that covers it. -/
def majorOf (g : Guard) (p : Nat) : Word :=
  match g.majors.find? (fun e => e.1 == p) with
  | some e => e.2
  | none => match g.rebuilt.find? (fun r => decide (r.lo ≤ p) && decide (p < r.hi)) with
    | some r => r.maj
    | none => 0

/-- Whether a rebuild covers metadata line j. -/
def Rebuilt.covers (r : Rebuilt) (gb j : Nat) : Bool :=
  let p := metaPlace gb j
  decide (p.1 ≤ r.level) && decide (r.lo ≤ p.2 * 8 ^ p.1) && decide (p.2 * 8 ^ p.1 < r.hi)

/-- What counter s of node j starts from: 0, or a fresh value of the newest rebuild that covers the node (R304, R319). -/
def nodeBase (g : Guard) (gb j s : Nat) : Word :=
  match g.rebuilt.find? (fun r => r.covers gb j) with
  | some r => Config.freeWord (r.base + 8 * j + s)
  | none => 0

/-- Counter s of node j. -/
def nodeOf (g : Guard) (gb j s : Nat) : Word := nodeBase g gb j s + tget 0 g.nodes (8 * j + s)

/-- The counter that metadata line j is stored under: its slot of its parent, or of the root (R307). -/
def parentCtr (g : Guard) (gb j : Nat) : Word :=
  match metaParent gb j with
  | (none, s) => tget 0 g.root s
  | (some p, s) => nodeOf g gb p s

/-- The 512 bits of metadata line j (R307), by its MAJOR and minors or its eight counters. -/
def metaBits (level : Nat) (major : Word) (minor : Nat → Nat) (node : Nat → Word) : Nat :=
  if level = 0 then major.toNat + ((List.range 64).map (fun i => minor i <<< (64 + 7 * i))).sum
  else ((List.range 8).map (fun s => (node s).toNat <<< (64 * s))).sum

/-- Metadata line j as the cache holds it, and as initialisation or the newest rebuild wrote it. -/
def metaNow (g : Guard) (gb j : Nat) : Nat :=
  metaBits (metaPlace gb j).1 (majorOf g j) (fun i => minorOf g (64 * j + i)) (nodeOf g gb j)
def metaFirst (g : Guard) (gb j : Nat) : Nat :=
  metaBits (metaPlace gb j).1 (majorOf { g with majors := [] } j) (fun _ => 127) (nodeBase g gb j)

/-- Metadata line j taken from its 512 bits. -/
def metaTake (g : Guard) (gb j bits : Nat) : Guard :=
  if (metaPlace gb j).1 = 0 then
    { g with
      majors := tset 0 g.majors j (BitVec.ofNat 64 bits)
      minors := (List.range 64).foldl (fun t i => tset 127 t (64 * j + i) ((bits >>> (64 + 7 * i)) % 128)) g.minors }
  else
    { g with nodes := (List.range 8).foldl (fun t s =>
        tset 0 t (8 * j + s) (BitVec.ofNat 64 (bits >>> (64 * s)) - nodeBase g gb j s)) g.nodes }

/-- A page that reads as lost: one whose counters ran out, or under a lost subtree that could not be rebuilt. -/
def pageDead (g : Guard) (p : Nat) : Bool :=
  g.exhausted.contains p || g.dead.any (fun r => decide (r.1 ≤ p) && decide (p < r.2))

/-- The guard once the millisecond of HIT is over: HIT shows the last full one, 0 where it had no lookup (R331). `winStart` is the
number of the millisecond under way. -/
def guardRoll (g : Guard) (now : Nat) : Guard :=
  if now / 1000 = g.winStart then g
  else
    let hit := if now / 1000 = g.winStart + 1 then g.hits * 1024 / max 1 g.looks else 0
    { g with stat := setFld g.stat 26 16 hit, looks := 0, hits := 0, winStart := now / 1000 }

def cached (g : Guard) (j : Nat) : Bool := g.cache.any (fun e => e.1 == j)

/-- The metadata lines above metadata line j, its parent first. -/
def metaUp (gb : Nat) : Nat → Nat → List Nat
  | 0, _ => []
  | fuel + 1, j =>
    match (metaParent gb j).1 with
    | none => []
    | some p => p :: metaUp gb fuel p

/-- The lines of a path that must be fetched: those below the lowest one cached, top first (R316). -/
def missingOf (g : Guard) (path : List Nat) : List Nat := (path.takeWhile (fun j => !cached g j)).reverse
def missing (x : GS) (page : Nat) : List Nat := missingOf x.g (metaPath x.mm.gb page)

def dirtyCount (g : Guard) : Nat := (g.cache.filter (·.2)).length
def GS.syncDirty (x : GS) : GS := { x with g := { x.g with stat := setFld x.g.stat 14 0 (dirtyCount x.g) } }

/-! ### Commands to the devices (R275, R289) -/

/-- RTRY of MC_STAT shows the commands in the retry buffer (R298). -/
def rtrySync (c : Mc) : Mc := { c with stat := setFld c.stat 31 24 c.retry.length }

/-- Commands are issued while the retry buffer has room, and wait in order where it is full (R289). -/
def mcIssue (c : Mc) (cs : List DevCmd) : Mc :=
  let all := c.todo ++ cs
  let k := 64 - c.retry.length
  rtrySync { c with retry := c.retry ++ all.take k, todo := all.drop k }

/-- The 64-byte blocks of bank that line i of group touches, and those of a set of its lines (R275). -/
def lineBlocks (group i : Nat) : List Nat := [(576 * group + 72 * i) / 64, (576 * group + 72 * i + 71) / 64]
def groupBlocks (group : Nat) (lines : List Nat) : List Nat := (lines.flatMap (lineBlocks group)).eraseDups

/-- Blocks of a bank moved in order, a row opened wherever the open one differs (R275). -/
def mcMove (c : Mc) (bank : Nat) (cmd : Nat → DevCmd) (blocks : List Nat) : Mc :=
  let r := blocks.foldl (fun (acc : Tbl Nat × List DevCmd) b =>
    let row := b * 64 / 2048
    if tget 0 acc.1 bank = row + 1 then (acc.1, acc.2 ++ [cmd b])
    else (tset 0 acc.1 bank (row + 1), acc.2 ++ [.act bank row, cmd b])) (c.rows, [])
  mcIssue { c with rows := r.1 } r.2

/-! ### Stored lines (R271, R308) -/

/-- Where data line n and metadata line j lie: bank, group, line (R306). -/
def dataPlace (n : Nat) : Nat × Nat × Nat := (n / 8 % 128, n / 8 / 128, n % 8)
def metaHome (gb j : Nat) : Nat × Nat × Nat := (j / 8 % 128, dataGroups gb + j / 1024, j % 8)

def GS.dataCtr (x : GS) (n : Nat) : LineCtr :=
  { ctr := majorOf x.g (n / 64), min := minorOf x.g n, tree := false, m := x.m, line := n }
def GS.metaCtr (x : GS) (j : Nat) : LineCtr :=
  { ctr := parentCtr x.g x.mm.gb j, min := 0, tree := true, m := x.m, line := j }
def GS.key (x : GS) : BitVec 256 := x.g.key.getD 0

/-- Where data line n lies in an area a load has left undefined, in a page not rebuilt since (R394): the free value of its
first word. -/
def GS.looseLine (x : GS) (n : Nat) : Option Nat :=
  let p := dataPlace n
  let a := x.mm.address x.m p.1 p.2.1 p.2.2
  if bitOf (majorOf x.g (n / 64)) 63 then none
  else (x.g.loose.find? (fun p => decide (p.1 ≤ a) && decide (a < p.1 + 2 ^ 28))).map (fun p => p.2 + (a - p.1) / 8)

/-- The stored bytes of data line n: zeros where nothing was written (log entry 3). -/
def GS.dataStored (x : GS) (n : Nat) : List Byte :=
  let l := tget [] x.g.lines n
  if l.isEmpty then
    match x.looseLine n with
    | some k => lineStored x.key (x.dataCtr n) ((List.range 8).flatMap (fun i => leBytes 8 (Config.freeWord (k + i)).toNat)) false
    | none => List.replicate 72 0
  else l

/-- The stored bytes of metadata line j: as initialised or rebuilt where nothing was written since (R304, R319). -/
def GS.metaStored (x : GS) (j : Nat) : List Byte :=
  let l := tget [] x.g.metas j
  if l.isEmpty then lineStored x.key (x.metaCtr j) (leBytes 64 (metaFirst x.g x.mm.gb j)) false else l

/-- Block b of a bank, from the eight stored lines of its group (R275). -/
def GS.block (x : GS) (bank b : Nat) : List Byte :=
  let group := b / 9
  let line := fun (i : Nat) =>
    if group < dataGroups x.mm.gb then x.dataStored ((128 * group + bank) * 8 + i)
    else x.metaStored ((group - dataGroups x.mm.gb) * 1024 + bank * 8 + i)
  (((List.range 8).flatMap line).drop (64 * (b % 9))).take 64

/-- Lines of one group read; and written: all eight write the group's nine blocks, any other set reads its blocks first
(R275). -/
def GS.readOut (x : GS) (bank group : Nat) (lines : List Nat) : GS :=
  { x with mc := mcMove x.mc bank (.read bank) (groupBlocks group lines) }
def GS.writeOut (x : GS) (bank group : Nat) (lines : List Nat) : GS :=
  let bs := groupBlocks group lines
  { x with mc := mcMove x.mc bank (fun b => .write bank b (x.block bank b)) bs }

/-- A single line rewritten in memory: its two blocks are read, merged and written, and a pending write-back of the line is
dropped (R274, R275). -/
def GS.lineOut (x : GS) (place : Nat × Nat × Nat) (key : Nat) : GS :=
  let y := { x with mc := { x.mc with wbs := x.mc.wbs.filter (fun p => p.1 != key) } }
  (y.readOut place.1 place.2.1 [place.2.2]).writeOut place.1 place.2.1 [place.2.2]

/-- The number under which a metadata line's write-back is queued. -/
def wbMeta (j : Nat) : Nat := 2 ^ 40 + j

/-- What a read of a data line or a metadata line gives (R273, R308 to R310). -/
def GS.dataRead (x : GS) (n : Nat) : LineRead := lineRead x.key (x.dataCtr n) (x.dataStored n)
def GS.metaRead (x : GS) (j : Nat) : LineRead := lineRead x.key (x.metaCtr j) (x.metaStored j)

/-- Bytes of a stored line have changed in the devices: of a line that holds nothing, nothing is kept (R311; log entry 54). -/
def GS.dataHit (x : GS) (n : Nat) (errs : LineErrs) : GS :=
  let l := tget [] x.g.lines n
  if l.isEmpty then x else { x with g := { x.g with lines := tset [] x.g.lines n (xorAt l errs) } }
def GS.metaHit (x : GS) (j : Nat) (errs : LineErrs) : GS :=
  if errs.isEmpty then x else { x with g := { x.g with metas := tset [] x.g.metas j (xorAt (x.metaStored j) errs) } }

/-- The words of 64 bytes. -/
def plainWords (bs : List Byte) : List Word :=
  (List.range 8).map (fun i => BitVec.ofNat 64 (leNat ((bs.drop (8 * i)).take 8)))

/-! ### Metadata written back (R314, R315) -/

/-- Metadata line j stored under the next value of its counter in its parent, which is named where it is not the root. -/
def GS.metaOut (x : GS) (j : Nat) : Option Nat × GS :=
  let gb := x.mm.gb
  let p := metaParent gb j
  let g := x.g
  let g1 := match p with
    | (none, s) => { g with root := tset 0 g.root s (tget 0 g.root s + 1) }
    | (some k, s) => { g with nodes := tset 0 g.nodes (8 * k + s) (tget 0 g.nodes (8 * k + s) + 1) }
  let y := { x with g := g1 }
  let l := lineStored y.key (y.metaCtr j) (leBytes 64 (metaNow g gb j)) false
  (p.1, GS.lineOut { y with g := { g1 with metas := tset [] g1.metas j l } } (metaHome gb j) (wbMeta j))

/-- A metadata line is put first in the cache, dirty if it was or is now; the least recently used of a full set leaves,
and a dirty one that leaves is written back, which makes its parent dirty (R314, R315). -/
def GS.cachePut : Nat → GS → Nat → Bool → GS
  | 0, x, _, _ => x
  | fuel + 1, x, j, dirty =>
    let was := x.g.cache.any (fun e => e.1 == j && e.2)
    let rest := x.g.cache.filter (fun e => e.1 != j)
    let set := rest.filter (fun e => e.1 % 1024 == j % 1024)
    let c := (j, was || dirty) :: rest
    let put := fun (l : List (Nat × Bool)) => { x with g := { x.g with cache := l } }
    if set.length < 16 then put c
    else
      match set.getLast? with
      | none => put c
      | some v =>
        let y := put (c.filter (fun e => e.1 != v.1))
        if v.2 then
          match y.metaOut v.1 with
          | (none, z) => z
          | (some p, z) => GS.cachePut fuel z p true
        else y

/-- A cached metadata line written back (R315): no longer dirty, its parent dirty. -/
def GS.metaWriteBack (x : GS) (j : Nat) : GS :=
  let y := { x with g := { x.g with cache := x.g.cache.map (fun (e : Nat × Bool) => if e.1 = j then (j, false) else e) } }
  match y.metaOut j with
  | (none, z) => z
  | (some p, z) => z.cachePut 12 p true

/-- The oldest dirty line. -/
def oldestDirty (g : Guard) : Option Nat := (g.cache.filter (·.2)).getLast?.map (·.1)

/-- The dirty line of the lowest number: a child before its parent. -/
def lowestDirty (g : Guard) : Option Nat :=
  g.cache.foldl (fun (m : Option Nat) (e : Nat × Bool) => if e.2 then some (min (m.getD e.1) e.1) else m) none

/-- Every dirty line written back, parents after children (R303, R314). -/
def GS.flushMeta : Nat → GS → GS
  | 0, x => x
  | fuel + 1, x =>
    match lowestDirty x.g with
    | none => x
    | some j => GS.flushMeta fuel (x.metaWriteBack j)

/-- A corrected line written back (R274). -/
def GS.writeBack (x : GS) (p : Nat × List Byte) : GS :=
  if p.1 < 2 ^ 40 then GS.lineOut { x with g := { x.g with lines := tset [] x.g.lines p.1 p.2 } } (dataPlace p.1) p.1
  else
    let j := p.1 - 2 ^ 40
    GS.lineOut { x with g := { x.g with metas := tset [] x.g.metas j p.2 } } (metaHome x.mm.gb j) p.1

/-! ### Records -/

def GS.ce (x : GS) (lineAddr : Nat) : GS :=
  { x with mc := { x.mc with err := satFld x.mc.err 63 48 1, erraddr := setFld x.mc.erraddr 30 0 lineAddr } }

/-- A corrected line whose tag is good waits for its write-back (R274). -/
def GS.queue (x : GS) (key : Nat) (bs : List Byte) : GS := { x with mc := { x.mc with wbs := x.mc.wbs ++ [(key, bs)] } }

/-- A line marked uncorrectable (R273, R318). -/
def GS.ue (x : GS) (lineAddr : Nat) : GS :=
  let mc := { x.mc with err := setBit (satFld x.mc.err 47 32 1) 15 true, erraddr := setFld x.mc.erraddr 62 32 lineAddr }
  let ts := x.g.ueTimes.filter (fun t => decide (x.now < t + 1000000)) ++ [x.now]
  let y := { x.log lineAddr with mc := mc, g := { x.g with ueTimes := ts } }
  if max 1 (fld x.g.ctl 47 40) < ts.length ∧ x.g.ueArmed = true then
    { (y.alarm 2) with g := { y.g with err := setBit y.g.err 4 true, ueArmed := false } }
  else y

/-- A data line's tag failed (R317). -/
def GS.tagFail (x : GS) (n : Nat) : GS :=
  let e := setBit (satFld x.g.err 63 48 1) 0 true
  { (x.log (x.dataAddr n)).alarm 1 with g := { x.g with err := e, erraddr := mkWord [(30, 0, x.dataAddr n)] } }

/-- A partial write's line was dropped. -/
def GS.pwDrop (x : GS) (n : Nat) : GS :=
  let e := setBit (satFld x.g.err 39 32 1) 2 true
  { (x.log (x.dataAddr n)).alarm 1 with g := { x.g with err := e, erraddr := mkWord [(30, 0, x.dataAddr n)] } }

/-- A DEGRADED alarm of this guard. -/
def GS.degraded (x : GS) : GS := { x.alarm 4 with g := { x.g with err := setBit x.g.err 3 true } }

/-- The next value of the REBUILD counter, none where it is saturated (R319). -/
def nextRebuild (g : Guard) : Option Nat :=
  if fld g.stat 55 32 = 0xFFFFFF then none else some (fld g.stat 55 32 + 1)
def rebuildMajor (r : Nat) : Word := BitVec.ofNat 64 (2 ^ 63 + r * 2 ^ 39)

/-- The metadata line written when `left` lines of the rebuild of (j, level, pages lo to hi) remain: from the counter blocks up. -/
def rebuildLine (gb lo hi left : Nat) : Nat → Nat
  | 0 => levelBase gb 0 + hi - left
  | l + 1 =>
    let lo1 := lo / 8 ^ (l + 1)
    let hi1 := (hi + 8 ^ (l + 1) - 1) / 8 ^ (l + 1)
    if left ≤ hi1 - lo1 then levelBase gb (l + 1) + hi1 - left else rebuildLine gb lo hi (left - (hi1 - lo1)) l

/-- A lost metadata line's subtree is rebuilt (R319): from here its pages read as lost, and the lines to be rewritten
are counted down by the rebuild's own steps. The lost line itself stands under its parent's present counter until its end. -/
def GS.rebuild (x : GS) (j : Nat) : GS :=
  let gb := x.mm.gb
  let p := metaPlace gb j
  let lo := p.2 * 8 ^ p.1
  let hi := min ((p.2 + 1) * 8 ^ p.1) (16 * dataGroups gb)
  let size := (List.range (p.1 + 1)).foldl (fun a l => a + ((hi + 8 ^ l - 1) / 8 ^ l - lo / 8 ^ l)) 0
  match nextRebuild x.g with
  | none => { x.degraded with g := { x.degraded.g with dead := (lo, hi) :: x.g.dead } }
  | some r =>
    let g := x.g
    let rb : Rebuilt := { lo := lo, hi := hi, level := p.1, maj := rebuildMajor r, base := x.free }
    let pages := fun (k : Nat) => !(decide (lo ≤ k) && decide (k < hi))
    let g1 := { g with
        stat := setFld (setFld g.stat 55 32 r) 63 60 3
        majors := tfilter pages g.majors
        minors := tfilter (fun k => pages (k / 64)) g.minors
        lines := tfilter (fun k => pages (k / 64)) g.lines
        nodes := tfilter (fun k => !rb.covers gb (k / 8)) g.nodes
        metas := tfilter (fun k => !rb.covers gb k) g.metas
        finds := g.finds.filter (fun f => if f.tree then !rb.covers gb f.num else pages (f.num / 64))
        rebuilt := rb :: g.rebuilt
        rebuilding := g.rebuilding ++ [(j, size)] }
    { x with
      free := x.free + 8 * levelBase gb (p.1 + 1)
      mc := { x.mc with wbs := x.mc.wbs.filter (fun w =>
        if w.1 < 2 ^ 40 then pages (w.1 / 64) else !rb.covers gb (w.1 - 2 ^ 40)) }
      g := g1 }

/-! ### Requests -/

def reqLines (r : Req) : List Nat :=
  ((List.range r.nWords).map (fun w => (r.word0 + w) / 8)).eraseDups

/-- The byte enables and data of word i (0 to 7) of the line at line address la. -/
def lineBe (r : Req) (la i : Nat) : BitVec 8 :=
  let w := 8 * la + i
  if r.word0 ≤ w ∧ w < r.word0 + r.nWords then r.be (w - r.word0) else 0
def lineWord (r : Req) (la i : Nat) : PWord := r.dataWord (8 * la + i - r.word0)
def lineFull (r : Req) (la : Nat) : Bool := (List.range 8).all (fun i => lineBe r la i == 0xFF)
def lineTouched (r : Req) (la : Nat) : Bool := (List.range 8).any (fun i => lineBe r la i != 0)

/-- The lines a request must read: all of a read's, those a write covers in part (R312). -/
def needsData (r : Req) : List Nat :=
  if r.isRead then reqLines r else (reqLines r).filter (fun la => lineTouched r la && !lineFull r la)

def GS.loc (x : GS) (la : Nat) : MemLoc := x.mm.locate (x.m / 2 ^ x.mm.s) (la * 64 % 2 ^ (34 + x.mm.s))

/-- The number of a line, its content, and whether it has none that a store or a load has left. -/
def GS.num (x : GS) (la : Nat) : Nat := locNum (x.loc la)
def GS.page (x : GS) (la : Nat) : Nat := locPage (x.loc la)
def GS.lineAt (x : GS) (la : Nat) : MLine :=
  let r := x.dataRead (x.num la)
  { words := plainWords r.plain, pois := r.pois || r.ue }
def GS.unwritten (x : GS) (la : Nat) : Bool := minorOf x.g (x.num la) == 127 && (x.looseLine (x.num la)).isNone

/-- A line encrypted and tagged under the counters in force. -/
def GS.seal (x : GS) (n : Nat) (l : MLine) : GS :=
  { x with
    g := { x.g with lines := tset [] x.g.lines n (lineStored x.key (x.dataCtr n) (l.words.flatMap (fun w => leBytes 8 w.toNat)) l.pois) }
    mc := { x.mc with wbs := x.mc.wbs.filter (fun p => p.1 != n) } }

/-- A line stored under the next value of its minor, its counter block dirty (R311, R312). A minor of 126 was reset to
start over by the page's re-encryption, which has made it 0. -/
def GS.store (x : GS) (n : Nat) (l : MLine) (restarted : Bool) : GS :=
  let old := minorOf x.g n
  let nx := if restarted then 0 else if old = 127 then 0 else old + 1
  let g := { x.g with minors := tset 127 x.g.minors n nx
                      majors := if (x.g.majors.any (fun e => e.1 == n / 64)) then x.g.majors
                                else tset 0 x.g.majors (n / 64) (majorOf x.g (n / 64)) }
  ((GS.seal { x with g := g } n l).cachePut 12 (n / 64) true).syncDirty

/-- What one line of a read gives: its words, and whether a tag failed (R311, R317). -/
structure LineOut where
  ws : List PWord
  bad : Bool
  deriving DecidableEq, Repr

def poisLine (ws : List Word) (p : Bool) : List PWord :=
  (List.range 8).map (fun i => { val := ws.getD i 0, pois := p })

/-- One line read: the decode of R273 with its records, then the matrix of R317. -/
def GS.readLine (x : GS) (la : Nat) : LineOut × GS :=
  let n := x.num la
  let page := n / 64
  if pageDead x.g page then ({ ws := poisLine [] true, bad := false }, x)
  else if x.unwritten la then
    ({ ws := poisLine [] (bitOf (majorOf x.g page) 63), bad := false }, x)
  else
    let r := x.dataRead n
    let ws := plainWords r.plain
    if r.ue then ({ ws := poisLine ws true, bad := false }, x.ue (x.dataAddr n))
    else
      let y := if r.ce then x.ce (x.dataAddr n) else x
      if r.tagOk then ({ ws := poisLine ws r.pois, bad := false }, if r.ce then y.queue n r.line else y)
      else ({ ws := poisLine ws false, bad := true }, y)

/-- A read answered: strict with TAGFAIL where a tag failed, early with its verdict in the response code, 1 GOOD and 2
BAD (R317, R321). -/
def GS.finishRead (x : GS) (pd : GPend) : GS :=
  let r := pd.req
  let init : List PWord × List Nat × GS := ([], [], x)
  let res := (reqLines r).foldl (fun acc la =>
    let q := acc.2.2.readLine la
    (acc.1 ++ q.1.ws, if q.1.bad then acc.2.1 ++ [la] else acc.2.1, q.2)) init
  let first := (reqLines r).headD 0
  let words := (res.1.drop (r.word0 - 8 * first)).take r.nWords
  let y := res.2.1.foldl (fun (y : GS) la => y.tagFail (y.num la)) res.2.2
  if pd.early then
    let bad := !res.2.1.isEmpty || pd.lost || pd.failed != 0
    y.answer { r.rdr words with pend := true, code := if bad then 2 else 1 }
  else if pd.failed ≠ 0 then y.answer (r.err (9 + 256 * pd.failed))
  else if res.2.1.isEmpty then y.answer (r.rdr words)
  else y.answer (r.err (9 + 256 * 5))

/-- One line of a write stored (R310, R312); the flag says it was dropped. -/
def GS.writeLine (x : GS) (r : Req) (la : Nat) (restarted : Bool) : Bool × GS :=
  let n := x.num la
  let page := n / 64
  let merged := fun (base : List Word) => (List.range 8).map (fun i =>
    let m := beMask (lineBe r la i)
    (base.getD i 0 &&& ~~~ m) ||| ((lineWord r la i).val &&& m))
  let inPois := (List.range 8).any (fun i => lineBe r la i != 0 && (lineWord r la i).pois)
  if lineTouched r la = false then (false, x)
  else if lineFull r la then (false, x.store n { words := merged [], pois := inPois } restarted)
  else if x.unwritten la = true ∧ restarted = false then
    (false, x.store n { words := merged [], pois := inPois || bitOf (majorOf x.g page) 63 } false)
  else
    let o := x.dataRead n
    let ws := plainWords o.plain
    if o.ue then (false, (x.ue (x.dataAddr n)).store n { words := merged ws, pois := true } restarted)
    else
      let y := if o.ce then x.ce (x.dataAddr n) else x
      if o.tagOk then (false, y.store n { words := merged ws, pois := inPois || o.pois } restarted)
      else (true, y.pwDrop n)

/-- The lines of its group that a request touches, and whether it covers all eight (R275). -/
def touchedLines (r : Req) : List Nat := ((reqLines r).filter (lineTouched r)).map (fun la => la % 8)
def wholeGroup (r : Req) : Bool := (reqLines r).length == 8 && (reqLines r).all (lineFull r)

/-- A write answered (R312, R317), its blocks written (R275); `restart` lists the lines whose minor was 126 before the page's
re-encryption. -/
def GS.finishWrite (x : GS) (pd : GPend) (restart : List Nat) : GS :=
  let r := pd.req
  if pd.failed ≠ 0 then x.answer (r.err (9 + 256 * pd.failed))
  else
    let res := (reqLines r).foldl (fun (acc : Bool × GS) la =>
      let q := acc.2.writeLine r la (restart.contains la)
      (acc.1 || q.1, q.2)) (false, x)
    let p := x.loc ((reqLines r).headD 0)
    (res.2.writeOut p.bank p.group (touchedLines r)).answer (if res.1 then r.err (9 + 256 * 7) else r.ack)

/-- The page and the group of a request, which lies in one group (R235). -/
def GS.pageOf (x : GS) (pd : GPend) : Nat := x.page ((reqLines pd.req).headD 0)
def groupOf (pd : GPend) : Nat := pd.req.a / 512

/-- Whether everything a request waits for has arrived: its path is verified and its lines are here (R316). -/
def GS.ready (x : GS) (pd : GPend) : Bool :=
  let page := x.pageOf pd
  (pd.failed != 0 || cached x.g page || pageDead x.g page) &&
  (pd.failed != 0 || (needsData pd.req).all (fun la => pd.seen.contains (la % 8))) &&
  !x.g.reenc.contains page

/-- The lines of a page that hold data, and those of them whose minor is 126. -/
def usedLines (g : Guard) (page : Nat) : List Nat := (List.range 64).filter (fun i => minorOf g (64 * page + i) != 127)
def spentLines (g : Guard) (page : Nat) : List Nat := (List.range 64).filter (fun i => minorOf g (64 * page + i) == 126)

/-- Every line of a page that holds data read, group by group (R313). -/
def GS.pageMove (x : GS) (page : Nat) (used : List Nat) (move : GS → Nat → Nat → List Nat → GS) : GS :=
  (List.range 8).foldl (fun (y : GS) k =>
    let p := dataPlace (64 * page + 8 * k)
    move y p.1 p.2.1 ((used.filter (fun i => i / 8 == k)).map (· % 8))) x

/-- The rule of R313 on a MAJOR that cannot step. -/
def majorTop (maj : Word) : Bool :=
  if bitOf maj 63 then fld maj 38 0 == 2 ^ 39 - 1 else fld maj 62 0 == 2 ^ 63 - 1

/-- A request that is ready is served (R311 to R313): a write that meets a minor of 126 starts the page's
re-encryption and waits; one that finds the page's counters exhausted is dropped. -/
def GS.serve (x0 : GS) (pd : GPend) : GS :=
  let r := pd.req
  let x := { x0 with mc := { x0.mc with dir := r.isRead, run := if x0.mc.dir = r.isRead then x0.mc.run + 1 else 1 } }
  let page := x.pageOf pd
  let spent := (reqLines r).filter (fun la => lineTouched r la && minorOf x.g (x.num la) == 126)
  if r.isRead then x.finishRead pd
  else if pd.failed = 0 ∧ pageDead x.g page = true then x.answer (r.err (9 + 256 * 8))
  else if pd.failed = 0 ∧ spent.isEmpty = false then
    if majorTop (majorOf x.g page) = true ∧ nextRebuild x.g = none then
      let y := { x.degraded with g := { x.degraded.g with exhausted := page :: x.g.exhausted } }
      y.answer (r.err (9 + 256 * 8))
    else
      GS.pageMove { x with g := { x.g with reenc := page :: x.g.reenc, pend := { pd with reenc := true } :: x.g.pend } } page
        (usedLines x.g page) GS.readOut
  else x.finishWrite pd []

/-- The requests that may be served now: ready, with no older one waiting for the same group (R281). -/
def GS.open (x : GS) : List (Nat × GPend) :=
  (x.g.pend.zipIdx.filter (fun p =>
    x.ready p.1 && (x.g.pend.take p.2).all (fun o => groupOf o != groupOf p.1))).map (fun p => (p.2, p.1))

/-- How a request stands in the choice of its bank (R282): over the age limit; class C1; the open row; the rest. -/
def GS.rank (x : GS) (pd : GPend) : Nat :=
  let l := x.loc ((reqLines pd.req).headD 0)
  let hit := tget 0 x.mc.rows l.bank == l.row 0 + 1
  if 64 * max 1 (fld x.mc.ctl 47 40) < 1000 * (x.now - pd.since) then 0
  else match pd.req.h.cls == 1, hit with
    | true, true => 1
    | true, false => 2
    | false, true => 3
    | false, false => 4

/-- The request served next (R282): after 32 of one direction the other has its turn where it waits; the bank is that of the
oldest request left, and in it the least rank decides, then age. -/
def GS.pick (x : GS) : Option (Nat × GPend) :=
  let all := x.open
  let other := all.filter (fun p => p.2.req.isRead != x.mc.dir)
  let cs := if 32 ≤ x.mc.run ∧ other.isEmpty = false then other else all
  let bank := fun (p : Nat × GPend) => (x.loc ((reqLines p.2.req).headD 0)).bank
  match cs with
  | [] => none
  | c :: t => some ((t.filter (fun p => bank p == bank c)).foldl (fun b p => if x.rank p.2 < x.rank b.2 then p else b) c)

/-- Every request that may be served is served. -/
def GS.serveAll : Nat → GS → GS
  | 0, x => x
  | n + 1, x =>
    match x.pick with
    | none => x
    | some p => GS.serveAll n (GS.serve { x with g := { x.g with pend := x.g.pend.eraseIdx p.1 } } p.2)

/-! ### What the scrubber has found (R292, R311, R317) -/

/-- The metadata lines that a find's check needs: the counter block of a data line and what is above it, what is above a
metadata line. -/
def GS.findPath (x : GS) (f : Find) : List Nat :=
  if f.tree then metaUp x.mm.gb 12 f.num else metaPath x.mm.gb (f.num / 64)

/-- A metadata line failed: lost, or its tag bad (R317). -/
def GS.nodeFail (x : GS) (j : Nat) : GS :=
  let e := setBit (satFld x.g.err 47 40 1) 1 true
  { x with g := { x.g with err := e, erraddr := mkWord [(63, 63, 1), (30, 0, j)] } }

/-- A find whose path is verified: nothing is recorded of a line that holds nothing; a corrected line's tag is checked, and it is
queued for its write-back. -/
def GS.findDone (x : GS) (f : Find) : GS :=
  if f.tree then
    let r := x.metaRead f.num
    if r.ue then x.ue (x.metaAddr f.num)
    else if r.ce then
      let y := x.ce (x.metaAddr f.num)
      if r.tagOk then y.queue (wbMeta f.num) r.line else ((y.log (x.metaAddr f.num)).alarm 3).nodeFail f.num
    else x
  else if minorOf x.g f.num = 127 ∨ pageDead x.g (f.num / 64) = true then x
  else
    let r := x.dataRead f.num
    if r.ue then x.ue (x.dataAddr f.num)
    else if r.ce then
      let y := x.ce (x.dataAddr f.num)
      if r.tagOk then y.queue f.num r.line else y.tagFail f.num
    else x

/-- Finds whose path is verified are dealt with, the others wait. -/
def GS.findsGo (x : GS) : GS :=
  x.g.finds.foldl (fun (y : GS) f =>
    if (missingOf y.g (y.findPath f)).isEmpty then y.findDone f else { y with g := { y.g with finds := y.g.finds ++ [f] } })
    { x with g := { x.g with finds := [] } }

/-- What can go on does. -/
def GS.settle (x : GS) : GS :=
  let y := x.findsGo
  y.serveAll y.g.pend.length

/-! ### Arrivals -/

/-- Metadata lines are read where no other request has already asked for them (R316). -/
def GS.fetch (x : GS) (js : List Nat) : GS :=
  js.foldl (fun (y : GS) j => let p := metaHome x.mm.gb j; y.readOut p.1 p.2.1 [p.2.2]) x

/-- Whether the devices have been asked for a line: its reads have left the queue that waits for the retry buffer (R289). -/
def GS.asked (x : GS) (place : Nat × Nat × Nat) : Bool :=
  (lineBlocks place.2.1 place.2.2).all (fun b => !x.mc.todo.contains (.read place.1 b))

/-- A metadata line arrives (R316, R317): counted only where something waits for it and its parent is verified. -/
def GS.metaArrive (x0 : GS) (j : Nat) (errs : LineErrs) : GS :=
  let gb := x0.mm.gb
  let under := fun (pd : GPend) => (missing x0 (x0.pageOf pd)).head? == some j
  let found := fun (f : Find) => (missingOf x0.g (x0.findPath f)).head? == some j
  if (x0.g.pend.any under || x0.g.finds.any found) = false ∨ x0.asked (metaHome gb j) = false then x0
  else
    let x := x0.metaHit j errs
    let r := x.metaRead j
    let y := if r.ue then x.ue (x.metaAddr j) else if r.ce then x.ce (x.metaAddr j) else x
    if r.ue = false ∧ r.tagOk = true then
      let z := if r.ce then y.queue (wbMeta j) r.line else y
      (GS.cachePut 12 { z with g := metaTake z.g gb j (leNat r.plain) } j false).syncDirty.settle
    else
      let z := y.nodeFail j
      let z := if r.ue then z.degraded else (z.log (x.metaAddr j)).alarm 3
      let z := z.rebuild j
      let mark := fun (pd : GPend) => if under pd then
          if r.ue then { pd with lost := pd.lost || (pd.early && !pd.seen.isEmpty && (metaPlace gb j).1 != 0) }
          else { pd with failed := 6 }
        else pd
      let pages := (z.g.pend.filter under).map x0.pageOf
      let z1 := { z with g := { z.g with pend := z.g.pend.map mark } }
      let z2 := if r.ue then pages.foldl (fun (y : GS) p => y.cachePut 12 p true) z1 else z1
      z2.syncDirty.settle

/-- A data line arrives for the oldest request that waits for it (R316). -/
def GS.dataArrive (x : GS) (n : Nat) (errs : LineErrs) : GS :=
  let wants := fun (pd : GPend) =>
    (needsData pd.req).any (fun la => x.num la == n && !pd.seen.contains (la % 8))
  match x.g.pend.findIdx? wants with
  | none => x
  | some i =>
    if x.asked (dataPlace n) = false then x
    else
      let y := x.dataHit n errs
      { y with g := { y.g with pend := y.g.pend.modify i (fun pd => { pd with seen := pd.seen ++ [n % 8] }) } }.settle

/-- One line of a page under re-encryption: what it holds goes on under the new counters, a line found bad with its poison
code. `x` is the guard before, whose counters the line was stored under. -/
def GS.reencLine (x : GS) (y : GS) (n : Nat) : GS :=
  let r := x.dataRead n
  let z := if r.ue then y.ue (y.dataAddr n)
           else
             let c := if r.ce then y.ce (y.dataAddr n) else y
             if r.tagOk then c else c.tagFail n
  z.seal n { words := plainWords r.plain, pois := r.ue || !r.tagOk || r.pois }

/-- A page's re-encryption completes (R313): MAJOR steps, every minor of a line that holds data becomes 0, every such line is
stored anew, and the write that waited goes on. -/
def GS.reencrypted (x0 : GS) (errs : List (Nat × LineErrs)) : GS :=
  match x0.g.reenc with
  | [] => x0
  | page :: rest =>
    let x := errs.foldl (fun (y : GS) e => if e.1 / 64 = page then y.dataHit e.1 e.2 else y) x0
    let maj := majorOf x.g page
    let r := (nextRebuild x.g).getD 0
    let used := usedLines x.g page
    let spent := spentLines x.g page
    let g := { x.g with
      stat := if majorTop maj then setFld x.g.stat 55 32 r else x.g.stat
      majors := tset 0 x.g.majors page (if majorTop maj then rebuildMajor r else maj + 1)
      minors := used.foldl (fun t i => tset 127 t (64 * page + i) 0) x.g.minors
      reenc := rest }
    let y := used.foldl (fun (y : GS) i => GS.reencLine x y (64 * page + i)) { x with g := g }
    let z := ((y.pageMove page used GS.writeOut).cachePut 12 page true).syncDirty
    match takeFirst (fun (pd : GPend) => pd.reenc && x.pageOf pd == page) z.g.pend with
    | none => z.settle
    | some (pd, others) =>
      let restart := (reqLines pd.req).filter (fun la => spent.contains (x.num la % 64))
      ({ z with g := { z.g with pend := others } }.finishWrite { pd with reenc := false } restart).settle

/-- One metadata line of a rebuild rewritten (R319). -/
def GS.rebuildStep (x : GS) : GS :=
  match x.g.rebuilding with
  | [] => x
  | (_, 0) :: _ => x
  | (j, left + 1) :: t =>
    let gb := x.mm.gb
    let p := metaPlace gb j
    let k := rebuildLine gb (p.2 * 8 ^ p.1) (min ((p.2 + 1) * 8 ^ p.1) (16 * dataGroups gb)) (left + 1) p.1
    GS.lineOut { x with g := { x.g with rebuilding := (j, left) :: t } } (metaHome gb k) (wbMeta k)

/-- A rebuild completes: the lost line's counter in its parent is raised, and STATE returns to READY after the last
(R319). -/
def GS.rebuildEnd (x : GS) : GS :=
  match x.g.rebuilding with
  | (j, 0) :: t =>
    let y := GS.metaWriteBack { x with g := { x.g with rebuilding := t } } j
    (if t.isEmpty then { y with g := grdSet y.g 2 } else y).syncDirty
  | _ => x

/-- The patrol scrubber reads the next group (R292, R311, R317): what it finds corrected or uncorrectable waits for its path; a lap
counts at the end. -/
def GS.patrol (x : GS) (errs : List LineErrs) : GS :=
  let gb := x.mm.gb
  let bank := x.mc.patrol / gb
  let group := x.mc.patrol % gb
  let tree := decide (dataGroups gb ≤ group)
  let num := fun (i : Nat) => if tree then (group - dataGroups gb) * 1024 + bank * 8 + i else (128 * group + bank) * 8 + i
  let nx := x.mc.patrol + 1
  let mc := if nx = 128 * gb then { x.mc with patrol := 0, stat := incFld x.mc.stat 23 16 } else { x.mc with patrol := nx }
  let x1 := GS.readOut { x with mc := mc } bank group (List.range 8)
  let x2 := errs.zipIdx.foldl (fun (y : GS) p =>
    if 8 ≤ p.2 then y else if tree then y.metaHit (num p.2) p.1 else y.dataHit (num p.2) p.1) x1
  let bad := (List.range 8).filter (fun i =>
    let r := if tree then x2.metaRead (num i) else x2.dataRead (num i)
    r.ue || r.ce)
  let fs := bad.map (fun i => ({ tree := tree, num := num i } : Find))
  let x3 := { x2 with g := { x2.g with finds := x2.g.finds ++ fs } }
  if fs.isEmpty then x3 else (x3.fetch ((fs.flatMap (fun f => missingOf x3.g (x3.findPath f))).eraseDups)).settle

/-- Everything the guard and controller hold is answered with a code (R37, R39, R291). -/
def GS.answerAll (x : GS) (code : Nat) : GS :=
  { x with resps := x.resps ++ x.g.pend.map (fun pd => pd.req.err code), g := { x.g with pend := [] } }

end Sys2Proof.Machine
end

