-- ==== Sys2Proof/Machine/Ops.lean ====
section
/-! DEFINITION. The named operations over the machine's units, configuration frames, clocks and reset trees,
notifications and the fault log. -/

namespace Sys2Proof.Machine
open Sys2Proof

/-! ### Units by number -/

def eng (s : State) (e : Nat) : Engine := tget {} s.engines e
def engPut (s : State) (e : Nat) (x : Engine) : State := { s with engines := tset {} s.engines e x }
def bank (s : State) (n : Nat) : Bank := tget {} s.banks n
def bankPut (s : State) (n : Nat) (b : Bank) : State := { s with banks := tset {} s.banks n b }
def wrapOf (s : State) (u : Nat) : Wrapper := tget {} s.wraps u
def wrapPut (s : State) (u : Nat) (w : Wrapper) : State := { s with wraps := tset {} s.wraps u w }
def routerOf (s : State) (r : Nat) : Router := tget {} s.routers r
def routerPut (s : State) (r : Nat) (x : Router) : State := { s with routers := tset {} s.routers r x }
def mcOf (s : State) (m : Nat) : Mc := tget {} s.mcs m
def mcPut (s : State) (m : Nat) (x : Mc) : State := { s with mcs := tset {} s.mcs m x }
def grdOf (s : State) (m : Nat) : Guard := tget {} s.guards m
def grdPut (s : State) (m : Nat) (x : Guard) : State := { s with guards := tset {} s.guards m x }
def domOf (s : State) (n : Nat) : Dom := tget {} s.pwr.doms n
def domPut (s : State) (n : Nat) (d : Dom) : State := { s with pwr := { s.pwr with doms := tset {} s.pwr.doms n d } }
def oppOf (s : State) (d : Nat) : Opp := tget {} s.pwr.opps d
def oppPut (s : State) (d : Nat) (x : Opp) : State := { s with pwr := { s.pwr with opps := tset {} s.pwr.opps d x } }
def pllOf (s : State) (i : Nat) : Pll := tget {} s.clk.plls i
def pllPut (s : State) (i : Nat) (x : Pll) : State := { s with clk := { s.clk with plls := tset {} s.clk.plls i x } }
def panelOf (s : State) (p : Nat) : Panel := tget {} s.panels p
def panelPut (s : State) (p : Nat) (x : Panel) : State := { s with panels := tset {} s.panels p x }
def laneOf (s : State) (l : Nat) : LaneReg := tget {} s.lanes l
def lanePut (s : State) (l : Nat) (x : LaneReg) : State := { s with lanes := tset {} s.lanes l x }
def quadOf (s : State) (q : Nat) : Quad := tget {} s.quads q
def quadPut (s : State) (q : Nat) (x : Quad) : State := { s with quads := tset {} s.quads q x }
def lkOf (s : State) (l : Nat) : Link := tget {} s.lks l
def lkPut (s : State) (l : Nat) (x : Link) : State := { s with lks := tset {} s.lks l x }
def darnerOf (s : State) (d : Nat) : Darner := tget {} s.darners d
def darnerPut (s : State) (d : Nat) (x : Darner) : State := { s with darners := tset {} s.darners d x }
def portOf (s : State) (k : Nat) : Port := tget {} s.ports k
def portPut (s : State) (k : Nat) (x : Port) : State := { s with ports := tset {} s.ports k x }
def trcOf (s : State) (d : Nat) : Trc := tget {} s.dbg.trc d
def trcPut (s : State) (d : Nat) (x : Trc) : State := { s with dbg := { s.dbg with trc := tset {} s.dbg.trc d x } }

/-- n free values are taken. -/
def bump (s : State) (n : Nat) : State := { s with fresh := s.fresh + n }

/-- Bytes drawn from the TRNG: free values (log entry 5). -/
def trngBytes (free n : Nat) : List Byte :=
  (List.range n).map (fun i => (Config.freeWord (free + i / 8)).setWidth 64 >>> (8 * (i % 8)) |>.setWidth 8)

/-- Words taken from bytes, eight at a time, little-endian. -/
def wordsOf (bs : List Byte) : List Word :=
  (List.range ((bs.length + 7) / 8)).map (fun i => BitVec.ofNat 64 (leNat ((bs.drop (8 * i)).take 8)))

/-- The keys of units with a wrapper (R37), as requests name them. -/
def unitKey (u : UnitRef) : Nat :=
  match u with
  | .engine e => e.val
  | .bankGroup g => 4096 + g.val
  | .controller m => 5000 + m.val
  | .quad q => 5100 + q.val
  | .queue l => 5200 + l.val
  | .port p q => 6000 + 64 * p.val + q.val
  | .router r => 9000 + r.val
  | .darner d => 5060 + d.val
  | .hub k => 5080 + k.val

/-- The engine group of an engine, numbered as its domain (R497). -/
def engGroup (e : Nat) : Nat := e / 8
/-- The domain of a unit key (R497); none for routers. -/
def unitDomain (u : Nat) : Option Nat :=
  if u < 3840 then some (engGroup u)
  else if 4096 ≤ u ∧ u < 4480 then some (0x200 + (u - 4096))
  else if 5000 ≤ u ∧ u < 5008 then some (0x440 + (u - 5000))
  else if 5100 ≤ u ∧ u < 5132 then some (0x420 + (u - 5100))
  else if 5200 ≤ u ∧ u < 5328 then some (0x420 + (u - 5200) / 4)
  else if 6000 ≤ u ∧ u < 8048 then some (0x460 + (u - 6000) / 64)
  else none

/-- The panel of an engine, a bank group or a port. -/
def unitPanel (u : Nat) : Nat := if u < 3840 then u / 120 else if u < 4480 then (u - 4096) / 12 else (u - 6000) / 64

/-- The die of a domain. -/
def domDie (n : Nat) : Nat :=
  if n < 0x200 then n / 120
  else if n < 0x400 then (n - 0x200) / 96
  else if n < 0x440 then (n % 0x20) / 8
  else if n < 0x460 then (n - 0x440) / 2
  else if n < 0x480 then (n - 0x460) / 8
  else n - 0x480

/-! ### Places on the network (R24, R26, R79, R80, R230, R231) -/

/-- The lowest router coordinates of a panel (R24). -/
def panelX (p : Nat) : Nat := (if p / 8 % 2 = 0 then 1 else 13) + 3 * (p % 4)
def panelY (p : Nat) : Nat := (if p / 8 < 2 then 0 else 8) + 4 * (p % 8 / 4)

/-- Router (X,Y) as numbered by its register block. -/
def routerAt (x y : Nat) : Nat := 16 * x + y
/-- The router of tile t of panel p (R79). -/
def tileRouter (p t : Nat) : Nat := routerAt (panelX p + t % 3) (panelY p + t / 3)

/-- Router × 16 + slot of a unit key (R80, R230). A controller's first attachment point stands for it. -/
def unitPlace (u : Nat) : Nat :=
  if u < 3840 then
    let p := u / 120
    let j := u % 120 / 8
    16 * routerAt (panelX p + j / 5) (panelY p + j % 5 % 4) + (if j % 5 = 4 then 8 else 7)
  else if u < 4480 then let g := u - 4096; 16 * tileRouter (g / 12) (g % 12) + 6
  else if u < 5008 then let m := u - 5000; 16 * routerAt (1 + 6 * (m % 4)) (if m < 4 then 0 else 15) + 10
  else if u < 5064 then let d := u - 5060; 16 * routerAt (if d % 2 = 0 then 1 else 13) (if d < 2 then 0 else 8) + 11
  else if u < 5089 then (if u = 5088 then 16 * 15 else if u = 5087 then 0 else 16 * 5 + (u - 5080))
  else if u < 5132 then 16 * tileRouter (u - 5100) 0 + 9
  else if u < 5328 then 16 * tileRouter ((u - 5200) / 4) 0 + 9
  else if u < 9000 then let k := u - 6000; 16 * tileRouter (k / 64) (k % 64 % 12) + k % 64 / 12
  else 16 * (u - 9000) + 12

/-- Router × 16 + slot of an initiator ID (R25, R230, R231). -/
def initPlace (i : Nat) : Nat :=
  if i < 4 then 16 * routerAt 0 5 + i
  else if i = 0x10 then 16 * routerAt 0 5 + 4
  else if i = 0x11 then 16 * routerAt 0 5 + 5
  else if 0x12 ≤ i ∧ i ≤ 0x15 then
    16 * routerAt (if i % 2 = 0 then 1 else 13) (if i < 0x14 then 0 else 8) + 11
  else if 0x1000 ≤ i ∧ i < 0x1F00 then unitPlace (i - 0x1000)
  else if 0x2000 ≤ i ∧ i < 0x2800 then unitPlace (6000 + (i - 0x2000))
  else if 0x3000 ≤ i ∧ i < 0x3080 then unitPlace (5200 + (i - 0x3000))
  else 16 * routerAt 0 5

/-- A fuse word as it counts: zero unless committed (R538). -/
def fuseWord (s : State) (n : Nat) : Word := if tget false s.sec.commit n then tget 0 s.sec.fuses n else 0

/-- The security state (R550, as loaded): 0 OPEN, 1 OWNED, 2 SEALED. -/
def secState (s : State) : Nat := fld s.sec.state 63 62
def secLock (s : State) : Bool := bitOf s.sec.state 59

/-- RST_STATE.MODE (R548): 0 native, 1 compatibility, 2 mixed. -/
def modeCode (s : State) : Nat := fld s.rst.state 57 56

/-! ### Configuration frames (R387 to R389) -/

def frameKey (p col row : Nat) : Nat := p * 2576 + col * 16 + row

/-- A word of a blank frame: every ENC select field all ones, every other bit 0. Which bits of the words in
routing-graph order are select fields, the routing graph fixes (R388). -/
def blankWord (col i : Nat) : Word :=
  if col < 144 then
    if i % 23 = 7 then fldMask 59 0 else if 8 ≤ i % 23 then Config.blankRoute col i else 0
  else if col = 144 then
    if 16 ≤ i ∧ i ≤ 20 then fldMask 59 0 else if i = 21 then fldMask 19 0 else if i = 22 then fldMask 4 0 else 0
  else if col < 149 then if i % 23 = 0 then 0 else Config.blankRoute col i
  else 0

/-- Word i of frame (p, col, row). -/
def frameWord (s : State) (p col row i : Nat) : Word :=
  match tget [] s.frames (frameKey p col row) with
  | [] => blankWord col i
  | ws => ws.getD i 0

def cellPanel (c : Nat) : Nat := c / 36864
def cellFrameWord (s : State) (c i : Nat) : Word :=
  frameWord s (cellPanel c) (c % 36864 / 256) (c % 256 / 16) (23 * (c % 16) + i)
/-- The control word of a cell (R48). -/
def cellCtl (s : State) (c : Nat) : Nat := (cellFrameWord s c 6).toNat % 2 ^ 32
/-- The slot vector V of a cell (R60). -/
def cellVec (s : State) (c : Nat) : Nat :=
  (List.range 6).foldl (fun a i => a + (cellFrameWord s c i).toNat <<< (64 * i)) 0
/-- Slot k of a cell. -/
def cellSlot (s : State) (c k : Nat) : Nat := nfld (cellVec s c) (48 * k + 47) (48 * k)
/-- The regional clock of a cell, numbered panel × 16 + i. -/
def cellRclk (s : State) (c : Nat) : Nat := cellPanel c * 16 + nfld (cellCtl s c) 15 12

/-- Word 23 j of port q's frame: INIT, TGT, regional clock, rights group (R388). -/
def portCfg (s : State) (p q : Nat) : Word := frameWord s p (145 + q / 16) 0 (23 * (q % 16))
/-- Word i of tile t's frame. -/
def tileWord (s : State) (p t i : Nat) : Word := frameWord s p (149 + t) 0 i

/-! ### Regional clocks and reset trees (R91 to R104) -/

def rclkPanel (r : Nat) : Nat := r / 16
def rclkCfg (s : State) (r : Nat) : Word := frameWord s (r / 16) 144 0 (r % 16)
def rclkGet (s : State) (r : Nat) : Rclk := tget {} s.rclks r
def rclkPut (s : State) (r : Nat) (x : Rclk) : State := { s with rclks := tset {} s.rclks r x }

/-- Set/reset of a panel is released: its SR step has run since it was last isolated (R100, R400). -/
def panelReleased (s : State) (p : Nat) : Bool := (panelOf s p).sr

/-- A reset of reach WARM or wider is in effect. -/
def wideActive (r : Rst) : Bool := (r.active && decide (4 ≤ r.eff)) || r.asserted.any (fun a => decide (4 ≤ a.2))

/-- A PANEL reset of panel p is asserted. -/
def panelHeld (s : State) (p : Nat) : Bool := s.rst.narrow.contains (2, 0, p)

/-- The clocks of a panel are stopped as a whole: by isolation (R415), a cross-trigger stop (R592) or its power state
(R498). -/
def panelStopped (s : State) (p : Nat) : Bool :=
  ((panelOf s p).iso != 0 && !(panelOf s p).sr) || bitOf (tget 0 s.dbg.xtp p) 63
  || decide (1 ≤ (domOf s (0x460 + p)).cur ∧ (domOf s (0x460 + p)).cur ≤ 3) || (domOf s (0x480 + p / 8)).cur == 4

/-- The multiplexers of a panel stand at the input its frames configure (R91); a load starts SW_CNT again (R99). -/
def rclksSelect (s : State) (p : Nat) (load : Bool) : State :=
  (List.range 16).foldl (fun t i =>
    let x := rclkGet t (16 * p + i)
    rclkPut t (16 * p + i) { x with
      src := fld (rclkCfg t (16 * p + i)) 49 48, swCnt := if load then 0 else x.swCnt, fclkCnt := 0
      edges := if load then 0 else x.edges }) s

/-- A clock-control tap of a regional clock is used (R86, R92, R388): 0 RRST, 1 RGATE, 2 RSEL0, 3 RSEL1. A tap left unused
reads 0. -/
def tapUsed (s : State) (r j : Nat) : Bool :=
  nfld (frameWord s (r / 16) 144 0 (16 + r % 16 / 3)).toNat (20 * (r % 16 % 3) + 5 * j + 4) (20 * (r % 16 % 3) + 5 * j) != 31

/-- The panel's fabric clock tap FCLK is used. -/
def fclkUsed (s : State) (p : Nat) : Bool := nfld (frameWord s p 144 0 22).toNat 4 0 != 31

/-- Input n of a regional clock is FCLK (R91). -/
def isFclk (s : State) (r n : Nat) : Bool := n == 3 && bitOf (rclkCfg s r) 40

/-- The global clock index that input n names (R91). -/
def gclkOf (s : State) (r n : Nat) : Nat := fld (rclkCfg s r) (24 + 5 * n) (20 + 5 * n)

/-- A PLL output runs (R89, R477, R479 to R482): enabled, locked or coasting, its divider not 0. -/
def pllDrives (s : State) (i o : Nat) : Bool :=
  let p := pllOf s i
  bitOf p.cfg 63 && (bitOf p.stat 62 || bitOf p.stat 61) && fld p.odiv (16 * o + 6) (16 * o) != 0

/-- Global clock g of a die runs: output g mod 4 of PLL g div 4 drives it (R477). -/
def gclkRuns (s : State) (d g : Nat) : Bool := pllDrives s (10 * d + g / 4) (g % 4)

/-- The input that drives a regional clock has edges. -/
def rclkFed (s : State) (r : Nat) : Bool :=
  let n := (rclkGet s r).src
  if isFclk s r n then fclkUsed s (r / 16) else gclkRuns s (r / 128) (gclkOf s r n)

/-- Whether a regional clock runs. -/
def rclkRuns (s : State) (r : Nat) : Bool :=
  bitOf (rclkCfg s r) 41 && !(rclkGet s r).gated && !panelStopped s (r / 16) && rclkFed s r

/-- Edges of PLL output o in a microsecond, in thousandths (R479, R508). -/
def outEdges (p : Pll) (o : Nat) : Nat := 1000 * fld p.stat 11 0 / fld p.odiv (16 * o + 6) (16 * o)

/-- The phase counts of a microsecond later: modulo 720,720, running while the PLL is locked or coasts (R90). -/
def pllTick (p : Pll) : Pll :=
  if bitOf p.cfg 63 && (bitOf p.stat 62 || bitOf p.stat 61) then
    { p with phase := (List.range 4).map (fun o => (p.phase.getD o 0 + outEdges p o) % 720720000) }
  else p

/-- The phase count of global clock g of a die (R90). -/
def phaseOf (s : State) (d g : Nat) : Nat := (pllOf s (10 * d + g / 4)).phase.getD (g % 4) 0 / 1000

/-- A divider of ratio n has a rising edge at phase count c of its input, and is high at it (R93). -/
def divRises (n c : Nat) : Bool := c % n == 0
def divHigh (n c : Nat) : Bool := decide (c % n < (n + 1) / 2)

/-- A regional clock's divided edges of a microsecond (R93, R98). -/
def rclkTick (s : State) (r : Nat) (x : Rclk) : Rclk :=
  if rclkRuns s r = true ∧ isFclk s r x.src = false then
    let g := gclkOf s r x.src
    { x with edges := x.edges + outEdges (pllOf s (10 * (r / 128) + g / 4)) (g % 4) / (fld (rclkCfg s r) 53 50 + 1) }
  else x

/-- Whether the governor removes the next divided edge of a regional clock (R98). -/
def edgeRemoved (s : State) (r : Nat) : Bool :=
  bitOf (rclkCfg s r) 54 && nbit (tget {} s.gov.dies (r / 128)).removed ((rclkGet s r).edges / 1000 % 8)

def rclkInReset (s : State) (r : Nat) : Bool := (rclkGet s r).rst

/-- Whether a source of R100 other than a routed RRST tap holds the tree; an unused tap reads 0, which is active where URST is
active low (R92). -/
def treeHeld (s : State) (r : Nat) : Bool :=
  wideActive s.rst || panelHeld s (r / 16) || !panelReleased s (r / 16) || !bitOf (rclkCfg s r) 41 || (rclkGet s r).forced ||
    (fld (rclkCfg s r) 43 42 == 2 && !tapUsed s r 0)

/-- A tree asserts: every cell it reaches that takes the reset returns to its reset state (R44, R57, R64, R101). -/
def treeAssert (r : Nat) (s : State) : State :=
  let t := rclkPut s r { rclkGet s r with rst := true }
  { t with cells := tfilter (fun c => !(cellRclk s c == r && nbit (cellCtl s c) 10)) t.cells }

/-- Every tree of a panel asserts. -/
def treesAssert (p : Nat) (s : State) : State := (List.range 16).foldl (fun t i => treeAssert (16 * p + i) t) s

/-- A switch completes (R94, R95, R99); a queued select that differs starts the next. FCLK's own count starts at 0
when it is selected (R93). -/
def rclkSwitched (r : Nat) (s : State) : State :=
  let x := rclkGet s r
  match x.pend with
  | none => s
  | some n =>
    let nx := match x.queued with
      | some q => if q = n then none else some q
      | none => none
    rclkPut s r { x with
      src := n, pend := nx, queued := none, swCnt := (x.swCnt + 1) % 65536
      fclkCnt := if n = 3 ∧ bitOf (rclkCfg s r) 40 = true then 0 else x.fclkCnt }

/-! ### Notifications and the fault log -/

/-- An object that sends notifications changes (R647, R648): each subscribed session queues one for it, the value being
read when it is sent; a full queue drops it. -/
def notify (s : State) (index sub : Nat) : State :=
  { s with svc := { s.svc with slots := s.svc.slots.map (fun (p : Nat × Sess) =>
      let x := p.2
      if x.ready = true ∧ x.subs.contains (index, sub) = true then
        if x.notes.contains (index, sub) then
          (p.1, { x with notes := x.notes.filter (· != (index, sub)) ++ [(index, sub)] })
        else if x.notes.length < 16 then (p.1, { x with notes := x.notes ++ [(index, sub)] })
        else (p.1, { x with lost := true })
      else p) } }

/-- An entry of the fault log (R612, R625). -/
def faultLog (s : State) (cls unit detail : Nat) : State :=
  let t := { s with st := { s.st with
      log := ({ us := s.now - s.st.began, cls := cls, unit := unit, detail := detail } :: s.st.log).take 64
      total := satAdd 32 s.st.total 1 } }
  if bitOf t.st.mask cls then notify t 0x7000 0 else t

/-! ### Wrappers (R37 to R40) -/

/-- The unit with a wrapper that an initiator belongs to (R37). -/
def initUnit (i : Nat) : Option Nat :=
  if 0x1000 ≤ i ∧ i < 0x1F00 then some (i - 0x1000)
  else if 0x2000 ≤ i ∧ i < 0x2800 then some (6000 + (i - 0x2000))
  else if 0x3000 ≤ i ∧ i < 0x3080 then some (5200 + (i - 0x3000))
  else if 0x12 ≤ i ∧ i ≤ 0x15 then some (5060 + (i - 0x12))
  else if i < 4 then some (5080 + i)
  else if i = 0x10 ∨ i = 0x11 then some (5084 + (i - 0x10))
  else none

/-- The units p picks have no part any more in what they asked of the network (R38): no response to it is delivered, nothing
their interfaces keep back is sent. -/
def leaveNet (s : State) (p : Nat → Bool) : State :=
  let gone := fun (i : Nat) => (initUnit i).any p
  { s with noc := { s.noc with
    outst := s.noc.outst.filter (fun o => !gone o.init), iface := s.noc.iface.filter (fun r => !gone r.h.init.toNat)
    responses := s.noc.responses.filter (fun r => !(r.own && gone r.init)) } }

/-- Responses put on their way. -/
def respond (s : State) (rs : List Resp) : State :=
  { s with noc := { s.noc with responses := s.noc.responses ++ rs } }

/-! #### Writes cut off (R41): which of the bytes they addressed have changed is free -/

/-- The memory map in force, and a controller's slice of it (R276 to R280). -/
def memMap (s : State) : MemMap :=
  let sLog := fld s.gcfg 33 32
  let first := ((List.range 8).find? (fun m => bitOf (mcOf s m).cfg 32)).getD 0
  { s := sLog, gb := groupsPerBank (mcOf s first).cfg
    gsel := (List.range sLog).map (fun i => (tget 0 s.gsel i).toNat)
    maps := (List.range 8).map (fun m => (List.range 7).map (fun i => (tget 0 (mcOf s m).maps i).toNat)) }

/-- A controller and its guard taken out for one event, and put back. -/
def gsOf (s : State) (m : Nat) : GS :=
  { m := m, mm := memMap s, now := s.now, free := s.fresh, mc := mcOf s m, g := grdOf s m }
def gsKeep (s : State) (x : GS) : State := grdPut (mcPut { s with fresh := x.free } x.m x.mc) x.m x.g

def engWord (x : Engine) (w : Nat) : PWord :=
  if w < 2048 then let l := tget {} x.dm w; { val := l.val, pois := l.pois } else tget zeroWord x.pm (w - 2048)

/-- One word of data or program memory written by the network (R110, R111, R153, R168): a merge of part of a word reads
it through the code first. -/
def engStoreWord (x : Engine) (free w : Nat) (be : BitVec 8) (d : PWord) (flip : BitVec 80) : Engine :=
  if be = 0 then x
  else
    let n := mergeWord (if be = 0xFF then zeroWord else eccRead free (engWord x w) flip) d be
    if w < 2048 then
      let y := dmPut x w { val := n.val, pois := n.pois }
      if w = 2047 ∧ x.st ≠ .reset then { y with ipend := setBit y.ipend 0 true } else y
    else { x with pm := tset zeroWord x.pm (w - 2048) n }

/-- A write of program memory while the engine runs (R110). WAITING, which R110 does not name, counts as running (log entry 53,
DESIGN CHOICE). -/
def engRefuses (s : State) (r : Req) : Bool :=
  let x := eng s (reqEng r)
  !r.isRead && decide (2048 ≤ reqEngWord r) && (x.st == EngSt.running || x.st == EngSt.waiting)

/-- The bytes of word i of a write cut off that have changed. -/
def cutBe (s : State) (r : Req) (i : Nat) : BitVec 8 :=
  (if r.isAtomic then 0xFF else r.be i) &&& (Config.freeWord (s.fresh + 2 * i)).setWidth 8
/-- What they have changed to: the write's data, or what an atomic left. -/
def cutData (s : State) (r : Req) (i : Nat) : PWord :=
  if r.isAtomic then { val := Config.freeWord (s.fresh + 2 * i + 1), pois := false } else r.dataWord i

def cutBank (s : State) (r : Req) : State :=
  let n := reqBank r
  let b := (List.range r.nWords).foldl (fun (b : Bank) i =>
    let a := (r.word0 + i) % 8192
    if cutBe s r i = 0 then b
    else bankStore b a (mergeWord (if rowValid b a then rawGet b a else zeroWord) (cutData s r i) (cutBe s r i))) (bank s n)
  bump (bankPut s n b) (2 * r.nWords)

def cutEng (s : State) (r : Req) : State :=
  if engRefuses s r then s
  else
    let e := reqEng r
    let x := (List.range r.nWords).foldl (fun (x : Engine) i =>
      if cutBe s r i = 0 then x
      else
        let w := (reqEngWord r + i) % 4096
        engStoreWord x 0 w 0xFF (mergeWord (engWord x w) (cutData s r i) (cutBe s r i)) 0) (eng s e)
    bump (engPut s e x) (2 * r.nWords)

/-- A line of external memory left with other contents, under its next minor where there is one. -/
def linePut (x : GS) (n : Nat) (l : MLine) : GS := if minorOf x.g n = 126 then x.seal n l else x.store n l false

def cutMem (s : State) (m : Nat) (r : Req) : State :=
  let x := (reqLines r).foldl (fun (x : GS) la =>
    let n := x.num la
    let be := fun (i : Nat) => if lineBe r la i = 0 then 0 else cutBe s r (8 * la + i - r.word0)
    if (List.range 8).all (fun i => be i == 0) then x
    else
      let old := if x.unwritten la then { words := [], pois := bitOf (majorOf x.g (n / 64)) 63 } else x.lineAt la
      let ws := (List.range 8).map (fun i => (mergeWord { val := old.words.getD i 0, pois := false } (lineWord r la i) (be i)).val)
      linePut x n { words := ws, pois := old.pois || (List.range 8).any (fun i => be i != 0 && (lineWord r la i).pois) }) (gsOf s m)
  bump (gsKeep s x) (2 * r.nWords)

/-- A request answered before it has completed: a write may have changed none, some or all of its bytes. -/
def cutReq (s : State) (r : Req) : State :=
  if r.isRead = true ∨ r.cmd = .rsvrd then s
  else if r.unit < 3840 then cutEng s r
  else if 4096 ≤ r.unit ∧ r.unit < 4480 then cutBank s r
  else if 5000 ≤ r.unit ∧ r.unit < 5008 then cutMem s (r.unit - 5000) r
  else s
def cutAll (s : State) (rs : List Req) : State := rs.foldl cutReq s

/-- Every request a unit has accepted and not completed is answered with a code (R37, R39, R41). -/
def wrapAnswer (s : State) (u code : Nat) : State :=
  let mine := s.noc.accepted.filter (fun r => r.unit == u)
  let s1 := respond { cutAll s mine with noc := { s.noc with accepted := s.noc.accepted.filter (fun r => r.unit != u) } }
    (mine.map (fun r => r.err code))
  if 5000 ≤ u ∧ u < 5008 then
    let g := grdOf s1 (u - 5000)
    let s2 := cutAll s1 (g.pend.map (fun pd => { pd.req with unit := u }))
    respond (grdPut s2 (u - 5000) { grdOf s2 (u - 5000) with pend := [] }) (g.pend.map (fun pd => pd.req.err code))
  else s1

/-- A disable (R37, R40). -/
def wrapDisable (s : State) (u : Nat) : State :=
  match (wrapOf s u).st with
  | .running => wrapPut s u { wrapOf s u with st := .draining }
  | .waking => wrapPut s u { wrapOf s u with st := .draining }
  | _ => s

/-- A unit is disabled for itself, not for its domain or its panel's load (R37); one that drains already is not disabled
again (R40). -/
def unitOff (s : State) (u : Nat) : State :=
  if (wrapOf s u).st = .draining then s
  else let t := wrapDisable s u; wrapPut t u { wrapOf t u with off := true }

/-- Whether a unit has accepted requests that are not complete. -/
def unitBusy (s : State) (u : Nat) : Bool :=
  s.noc.accepted.any (fun r => r.unit == u) ||
  (decide (5000 ≤ u ∧ u < 5008) && !(grdOf s (u - 5000)).pend.isEmpty)

/-- The regional clock of a port, and whether its reset tree is asserted (R104, R388). -/
def portRclk (s : State) (k : Nat) : Nat := 16 * (k / 64) + fld (portCfg s (k / 64) (k % 64)) 7 4
def portInReset (s : State) (k : Nat) : Bool := rclkInReset s (portRclk s k)

/-- A port completes what it has outstanding with an error; RS_READY is ignored, so what it buffered passes too (R70). -/
def portGiveUp (s : State) (k : Nat) : State :=
  match (s.noc.outst.filter (fun o => o.init == 0x2000 + k)).getLast? with
  | some o => portPut s k { rs := some { init := o.init, tag := o.tag, kind := .err, code := 3, cls := o.cls, addr := o.addr, id := o.id }, buf := [] }
  | none => if (portOf s k).buf.isEmpty then s else portPut s k { rs := (portOf s k).buf.getLast?, buf := [] }

/-- The stop that ends a drain; an enable asked for meanwhile follows (R40). A port gives up what it has outstanding (R70). -/
def wrapStop (s : State) (u : Nat) : State :=
  let w := wrapOf s u
  let t := wrapPut s u { w with st := if w.enableAfter then .waking else .stopped, enableAfter := false }
  if 6000 ≤ u ∧ u < 8048 then portGiveUp t (u - 6000) else t

/-- What ports buffered while their clock's reset tree was asserted passes to user logic, in order (R69, R104). -/
def portsFlush (s : State) (r : Nat) : State :=
  { s with
    ports := tmap {} (fun k (x : Port) =>
      if portRclk s k = r ∧ x.buf.isEmpty = false then { rs := x.buf.getLast?, buf := [] } else x) s.ports
    noc := { s.noc with accepted := s.noc.accepted.map (fun q =>
      if 6000 ≤ q.unit ∧ portRclk s (q.unit - 6000) = r then { q with buf := false } else q) } }

/-- What a domain's entry, a disable or a closed slot asks of a group's banks: the background test finishes its region (R215,
R227). -/
def groupFinish (s : State) (g : Nat) : State :=
  { s with banks := tmap {} (fun n (b : Bank) => if n / 8 = g then bistFinish b else b) s.banks }

/-! ### Engines' effects outside themselves -/

/-- A trace record (R597). -/
def traceRec (s : State) (e kind src dst : Nat) : State :=
  let d := e / 960
  let t := trcOf s d
  if bitOf t.reg 63 = true ∧ fld t.reg 11 0 = e then
    let w := mkWord [(63, 61, kind), (60, 51, src), (50, 41, dst), (40, 0, (eng s e).cyc - t.t0)]
    if t.ring.length < 512 then trcPut s d { t with ring := t.ring ++ [w] }
    else trcPut s d { t with ring := t.ring.drop 1 ++ [w], reg := setBit t.reg 62 true }
  else s

/-- Whether a port of panel p holds a bank reservation (R593). -/
def panelLocked (s : State) (p : Nat) : Bool :=
  s.banks.any (fun b => b.2.resv.any (fun r => decide (0x2000 + 64 * p ≤ r.req) && decide (r.req < 0x2040 + 64 * p)))

/-- A panel's clocks stop by a cross-trigger channel, or the stop is deferred (R592, R593). -/
def panelXStop (s : State) (p : Nat) : State :=
  let w := tget 0 s.dbg.xtp p
  let w' := if panelLocked s p then setBit w 62 true else setBit w 63 true
  { s with dbg := { s.dbg with xtp := tset 0 s.dbg.xtp p w' } }

/-- An engine of the halt group of the channels in mask stops issue with HCAUSE 7 if it runs or waits (R592). -/
def xtHalt (mask : Nat) (x : Engine) : Engine :=
  if (x.st = EngSt.running ∨ x.st = EngSt.waiting) ∧ fld x.xt 15 0 &&& mask ≠ 0 ∧ x.halting = false then
    (engStop x 7 x.pc).1
  else x

/-- The panels whose IN masks hold a channel of the mask (R591). -/
def xtPanels (s : State) (mask : Nat) : List Nat :=
  (List.range 32).filter (fun p => fld (tget 0 s.dbg.xtp p) 15 0 &&& mask != 0)

/-- Channels fire (R591, R592): FIRED is set, a PINOUT channel pulses XTRIG_N for 1 µs, RUNNING and WAITING engines of
the halt group stop issue with HCAUSE 7, and its panels' clocks stop. -/
def fireChannels (s : State) (mask : Nat) : State :=
  if mask = 0 then s
  else
    let x := s.dbg.xtch
    let s1 := { s with dbg := { s.dbg with xtch := x ||| BitVec.ofNat 64 (mask % 65536 * 2 ^ 48) } }
    let s2 := if mask &&& fld x 47 32 ≠ 0 then
        { s1 with pins := { s1.pins with xtrigUntil := s1.now + 1 } } else s1
    let s3 := { s2 with engines := tmap {} (fun _ x => xtHalt mask x) s2.engines }
    (xtPanels s3 mask).foldl panelXStop s3

/-- The trace records and cross-trigger firings of an engine's step (R591, R597). -/
def engEvents (s : State) (e : Nat) (evs : List EngEv) : State :=
  evs.foldl (fun t ev => match ev with
    | .trace k a b => traceRec t e k a b
    | .stop c => if c = 7 then t else fireChannels t (fld (eng t e).xt 47 32)
    | .expiry => t) s

/-- A double fault sets GRP in the other engines of the group (R164). -/
def setGrp (s : State) (e : Nat) : State :=
  (List.range 8).foldl (fun t i =>
    let k := e / 8 * 8 + i
    if k = e then t else
      let x := eng t k
      if x.st = .reset then t else engPut t k { x with ipend := setBit x.ipend 3 true }) s

end Sys2Proof.Machine
end

