-- ==== Sys2Proof/Machine/Hosted.lean ====
section
/-! DEFINITION. The legacy design that P1 hosts, as the MK2140 it stands for would hold it: its clock edges, flip-flops, memory
outputs, multipliers, and the bridge to native logic (R446 to R455, R471). -/

namespace Sys2Proof.Machine
open Sys2Proof

/-- The legacy design as address and byte pairs. -/
def lgDesign (l : Legacy) : List (Nat × Byte) :=
  l.frames.flatMap (fun (e : Nat × List Byte) => e.2.map (fun b => (e.1, b)))

/-- The logic block (x, y) that a cell of P1 hosts (R447): panel column x + 8, row y + 32. -/
def lgBlockAt (c : Nat) : Option (Nat × Nat) :=
  let col := c % 36864 / 256
  let row := c % 256
  if c / 36864 = 1 ∧ 8 ≤ col ∧ col < 136 ∧ 32 ≤ row ∧ row < 224 then some (col - 8, row - 32) else none

/-- Margin cell i of the window, as a cell of the device (R448): columns 0 to 7 and 136 to 143, then rows 0 to 31 and 224 to 255 of
the others. -/
def lgMargin (i : Nat) : Nat :=
  let col := if i < 4096 then (if i / 256 < 8 then i / 256 else i / 256 + 128) else 8 + (i - 4096) / 64
  let row := if i < 4096 then i % 256 else (if (i - 4096) % 64 < 32 then (i - 4096) % 64 else (i - 4096) % 64 + 192)
  36864 + 256 * col + row

/-- What the hosted design holds after the edges so far (R449): flip-flop k of block (x, y), port p of memory m, the product of
multiplier i, which four margin cells build (R455). -/
def lgFlip (s : State) (x y k : Nat) : Bool := Config.mkFlip (lgDesign s.lg) s.lg.edges x y k
def lgMemOut (s : State) (m p : Nat) : BitVec 36 := Config.mkMem (lgDesign s.lg) s.lg.edges m p
def lgProduct (s : State) (i : Nat) : BitVec 36 := Config.mkProduct (lgDesign s.lg) s.lg.edges i
def lgMultCells (s : State) (i : Nat) : List Nat := (Config.multCells (lgDesign s.lg) i).toList.map (fun c => lgMargin c.val)

/-! ### The bridge (R471) -/

/-- Whether legacy I/O i is bridged, and the panel its signals cross into. -/
def lgBridged (l : Legacy) (i : Nat) : Bool := bitOf (l.bridge.getD (i / 64) 0) (i % 64)
def lgBridgePanel (i : Nat) : Nat := if i < 144 then 2 else 5

/-- LGB_O and LGB_OE of bridged I/O i. -/
def lgbO (s : State) (i : Nat) : Bool := lgBridged s.lg i && (Config.mkDrive (lgDesign s.lg) s.lg.edges i).1
def lgbOE (s : State) (i : Nat) : Bool := lgBridged s.lg i && (Config.mkDrive (lgDesign s.lg) s.lg.edges i).2

/-- What the design drives on ball i: nothing while the legacy outputs are held, nor on a bridged ball, which is high-impedance with
the weak pull (R467, R471). -/
def lgBall (s : State) (i : Nat) : Option Bool :=
  let d := Config.mkDrive (lgDesign s.lg) s.lg.edges i
  if s.lg.hosted = true ∧ bitOf s.lg.stat 10 = false ∧ lgBridged s.lg i = false ∧ d.2 = true then some d.1 else none

/-- What the design sees on I/O i at an edge: the ball, or LGB_I, which its seam holds while the panel it starts in is isolated
(R417, R471). -/
def lgInput (s : State) (e : LgEdge) (i : Nat) : Bool :=
  if lgBridged s.lg i then
    if (panelOf s (lgBridgePanel i)).iso = 0 then e.native.getLsbD i else s.lg.lgbI.getLsbD i
  else e.balls.getLsbD i

/-- An edge of a legacy clock reaches the hosted design. -/
def lgTick (s : State) (runs : Bool) (edge : Option LgEdge) : State :=
  match edge with
  | none => s
  | some e =>
    if s.lg.hosted = true ∧ runs = true then
      let v : BitVec 288 := BitVec.ofNat 288 ((List.range 288).foldl (fun m i => m + (lgInput s e i).toNat <<< i) 0)
      { s with lg := { s.lg with edges := (e.net.val, v) :: s.lg.edges, lgbI := v } }
    else s

/-- The design starts anew with its flip-flops at their initial values (R447). -/
def lgRestart (s : State) : State := { s with lg := { s.lg with edges := [] } }
/-- P1 hosts a design no more; its outputs and its set/reset are held (R467). -/
def lgGone (s : State) (p : Nat) : State :=
  if p = 1 then { s with lg := { s.lg with hosted := false, edges := [], lgbI := 0, stat := setFld s.lg.stat 10 9 3 } } else s

end Sys2Proof.Machine
end

