-- ==== Sys2Proof/Machine/Message.lean ====
section
/-! DEFINITION. Messages of the service port, the JTAG pipe and the hub windows, sessions, and how the device answers
(R634 to R648). -/

namespace Sys2Proof.Machine
open Sys2Proof


/-- The full header with its payload, and the short header with its data (R634). -/
def msgFull (kind flags : Nat) (sid tid sub index : Nat) (payload : List Byte) : List Byte :=
  [BitVec.ofNat 8 (16 * kind + flags), BitVec.ofNat 8 sid, BitVec.ofNat 8 tid, BitVec.ofNat 8 sub] ++
    leBytes 2 index ++ leBytes 2 payload.length ++ payload
def msgShort (kind flags : Nat) (sid tid seq : Nat) (data : List Byte) : List Byte :=
  [BitVec.ofNat 8 (16 * kind + flags), BitVec.ofNat 8 sid, BitVec.ofNat 8 tid, BitVec.ofNat 8 seq] ++ data

/-! ### Sessions -/

def sessOf (s : State) (k : Nat) : Sess := tget {} s.svc.slots k
def sessPut (s : State) (k : Nat) (x : Sess) : State := { s with svc := { s.svc with slots := tset {} s.svc.slots k x } }

/-- Messages of the session carry tags: above level 0, once AUTH is answered (R640). -/
def Sess.tagged (x : Sess) : Bool := decide (1 ≤ x.level) && x.ready

/-- The tag of a message (R640); D is 0 from the host, 1 from the device. -/
def sessTag (x : Sess) (d cnt : Nat) (msg : List Byte) : List Byte :=
  (hmac x.ks (BitVec.ofNat 8 d :: leBytes 8 cnt ++ msg)).take 8

/-- The largest message of a carrier (R634): the service port's by its physical option, JTAG's, a window's. -/
def msgLimit (s : State) (path : Nat) : Nat :=
  match path with
  | 0 => if s.svc.phys = 0 then 64 else 1024
  | 1 => 1024
  | _ => 512

/-- A message goes out as it is. -/
def sendRaw (s : State) (path init : Nat) (bytes : List Byte) : State :=
  { s with svc := { s.svc with outbox := s.svc.outbox ++ [{ path := path, init := init, bytes := bytes }] } }

/-- A message of a session goes out, with its tag where one is due; none of a session that has closed. -/
def sessSend (s : State) (k : Nat) (msg : List Byte) : State :=
  let x := sessOf s k
  if x.sid = 0 then s
  else if x.tagged then
    sendRaw (sessPut s k { x with cntOut := x.cntOut + 1 }) x.path x.init (msg ++ sessTag x 1 x.cntOut msg)
  else sendRaw s x.path x.init msg

/-! ### Frames of the service port (R630, R631) -/

/-- The device's own address on 10BASE-T1S: 02, 49, 44 and bytes 0 to 2 of the serial number. -/
def ethAddr : List Byte := [0x02, 0x49, 0x44] ++ leBytes 3 Config.serial.toNat

/-- An Ethernet address as its six bytes, the first sent first. -/
def macBytes (a : Nat) : List Byte := (leBytes 6 a).reverse

/-- Zero bytes up to a length. -/
def padTo (n : Nat) (bs : List Byte) : List Byte := bs ++ List.replicate (n - bs.length) 0

/-- The frame a message goes out in on 10BASE-T1S: to the station that opened its session, EtherType 0x88B5, padded to 46
bytes. -/
def ethFrame (dest : Nat) (msg : List Byte) : List Byte := macBytes dest ++ ethAddr ++ [0x88, 0xB5] ++ padTo 46 msg

/-- The local node ID of PLCA, where PLCA is set; CSMA/CD otherwise. -/
def plcaId (s : State) : Option Nat := if bitOf s.svc.cfg 8 then some (s.svc.node + 1) else none

/-- The next valid length of a CAN FD data field. -/
def canLen (n : Nat) : Nat := ([0, 1, 2, 3, 4, 5, 6, 7, 8, 12, 16, 20, 24, 32, 48, 64].find? (fun k => decide (n ≤ k))).getD 64

/-- The identifier and data field of a message on CAN FD (R630): a NOTIFY or CLOSE goes under DIR 0b10, an answer under 0b01. -/
def canFrame (s : State) (msg : List Byte) : Nat × List Byte :=
  let kind := (msg.headD 0).toNat / 16
  let dir := if kind = 7 ∨ kind = 10 then 2 else 1
  (0x1B5 <<< 20 + dir <<< 18 + s.svc.node <<< 14 + (msg.getD 1 0).toNat <<< 6, padTo (canLen msg.length) msg)

/-- The frames in which the service port's waiting messages go out: identifier and data on CAN FD, a frame on 10BASE-T1S. -/
def portFrames (s : State) : List (Option Nat × List Byte) :=
  (s.svc.outbox.filter (fun m => m.path == 0)).map (fun m =>
    if s.svc.phys = 0 then (some (canFrame s m.bytes).1, (canFrame s m.bytes).2) else (none, ethFrame m.init m.bytes))

/-! ### Answers (R635, R642, R645) -/

def sendAbort (s : State) (k tid index sub code detail : Nat) : State :=
  sessSend s k (msgFull 9 0 (sessOf s k).sid tid sub index (leBytes 1 code ++ leBytes 1 detail ++ [0, 0]))
/-- An ABORT outside any session. -/
def abortRaw (s : State) (path init sid tid index sub code detail : Nat) : State :=
  sendRaw s path init (msgFull 9 0 sid tid sub index (leBytes 1 code ++ leBytes 1 detail ++ [0, 0]))

/-- The bytes a segment of a session's carrier holds. -/
def segRoom (s : State) (x : Sess) : Nat := msgLimit s x.path - 4 - (if x.tagged then 8 else 0)

/-- A session's transfer with a TID and direction, changed. -/
def segPut (s : State) (k : Nat) (g : Seg) : State :=
  let x := sessOf s k
  sessPut s k { x with segs := x.segs.map (fun h => if h.tid = g.tid ∧ h.write = g.write then g else h) }
def segEnd (s : State) (k tid : Nat) (write : Bool) : State :=
  let x := sessOf s k
  sessPut s k { x with segs := x.segs.filter (fun h => !(h.tid == tid && h.write == write)) }

/-- Segments of a read go out while fewer than 16 are unacknowledged (R645). -/
def segMore : Nat → State → Nat → Seg → State
  | 0, s, k, g => segPut s k g
  | fuel + 1, s, k, g =>
    let room := max 1 (segRoom s (sessOf s k))
    let n := (g.total + room - 1) / room
    if g.seq < min n (g.acked + 16) then
      let t := sessSend s k (msgShort 4 (if g.seq + 1 = n then 1 else 0) (sessOf s k).sid g.tid (g.seq % 256)
        ((g.data.drop (g.seq * room)).take room))
      segMore fuel t k { g with seq := g.seq + 1 }
    else segPut s k g

/-- Whether a segmented transfer of an object is under way in any session. -/
def segBusy (s : State) (index sub : Nat) : Bool :=
  s.svc.slots.any (fun p => p.2.segs.any (fun g => g.index == index && g.sub == sub))

/-- The OK of a request, whose value travels segmented where it does not fit (R645). -/
def sendOk (s : State) (k tid index sub : Nat) (value : List Byte) : State :=
  let x := sessOf s k
  if 8 + value.length + (if x.tagged then 8 else 0) ≤ msgLimit s x.path then
    sessSend s k (msgFull 8 0 x.sid tid sub index value)
  else if segBusy s index sub then sendAbort s k tid index sub 9 0
  else
    let g : Seg := { tid := tid, index := index, sub := sub, write := false, total := value.length, data := value }
    let t := sessSend s k (msgFull 8 2 x.sid tid sub index (leBytes 4 value.length))
    segMore 17 (sessPut t k { sessOf t k with segs := (sessOf t k).segs ++ [g] }) k g

/-- The publisher of the access that waits has answered (R655). -/
def pubAnswer (s : State) (w : PubWait) (p : Resp) : State :=
  let t := { s with svc := { s.svc with wait := none } }
  match p.kind with
  | .err => sendAbort t w.req.slot w.req.tid w.req.index w.req.sub 0x10 (p.code % 256)
  | .rdr => sendOk t w.req.slot w.req.tid w.req.index w.req.sub ((p.data.flatMap (fun d => leBytes 8 d.val.toNat)).take w.len)
  | _ => sendOk t w.req.slot w.req.tid w.req.index w.req.sub []

/-! ### The end of a session (R637, R646) -/

/-- A session with a segmented stream under way. -/
def Sess.streams (x : Sess) : Bool := x.segs.any (fun g => g.write && g.index == 0x2002)

/-- The slot is free; what it had outstanding is gone. -/
def sessFree (s : State) (k : Nat) : State :=
  let t := sessPut s k {}
  { t with svc := { t.svc with
    queue := t.svc.queue.filter (fun r => r.slot != k)
    wait := if t.svc.wait.any (fun w => w.req.slot == k) then none else t.svc.wait } }

/-- CLOSE is sent and the session ends (R637). -/
def sessBye (s : State) (k : Nat) : State :=
  let x := sessOf s k
  sessFree (sessSend s k (msgFull 7 0 x.sid 0 0 0 [0x12])) k

end Sys2Proof.Machine
end

