-- ==== Sys2Proof/Machine/LaneCore.lean ====
section
/-! DEFINITION. Lanes and links as operations of the machine: which lanes form a link, its states, its control blocks,
loss of a lane, the capability exchange (R336 to R361). -/

namespace Sys2Proof.Machine
open Sys2Proof

/-! ### Fields of LN_CFG and LN_STAT (R369, R372) -/

def lnMode (s : State) (l : Nat) : Nat := fld (laneOf s l).cfg 63 60
def lnWidth (s : State) (l : Nat) : Nat := fld (laneOf s l).cfg 44 40
def lnLead (s : State) (l : Nat) : Nat := if lnMode s l = 0 then l else fld (laneOf s l).cfg 39 32
def lnState (s : State) (l : Nat) : Nat := fld (laneOf s l).stat 63 60
def lnNative (s : State) (l : Nat) : Bool := lnMode s l == 2 || lnMode s l == 3
/-- A boundary-scan instruction has the pins: the lanes take no part in any port or link (R366, R577). -/
def bscan (s : State) : Bool := [0, 3, 4, 5].contains s.dbg.ir
/-- A lane that leads a port or link. -/
def lnIsLead (s : State) (l : Nat) : Bool := lnMode s l != 0 && fld (laneOf s l).cfg 39 32 == l && lnWidth s l != 0
/-- The lanes of the link a lead lane leads. -/
def lnLanes (s : State) (l : Nat) : List Nat := (List.range (lnWidth s l)).map (fun i => l + i)
/-- The mask of all its logical lanes. -/
def lnFull (s : State) (l : Nat) : Nat := 2 ^ lnWidth s l - 1
/-- The number of lanes in a mask. -/
def popc (m : Nat) : Nat := (bitsOf 16 m).length

def txReq (s : State) (l : Nat) : Nat := fld (quadOf s (l / 4)).ctl (2 * (l % 4) + 1) (2 * (l % 4))
def rxReq (s : State) (l : Nat) : Nat := fld (quadOf s (l / 4)).ctl (9 + 2 * (l % 4)) (8 + 2 * (l % 4))

def lnPutField (s : State) (l hi lo v : Nat) : State :=
  let x := laneOf s l
  lanePut s l { x with stat := setFld x.stat hi lo v }

/-- LSTATE of a lead lane; KEYFAIL clears when DETECT is entered from FAILED (R372). -/
def lnSetState (s : State) (l st : Nat) : State :=
  let s1 := if st = 1 ∧ lnState s l = 6 then lnPutField s l 51 51 0 else s
  lnPutField s1 l 63 60 st

/-- A lane's halves follow LN_CTL while its quad is powered (R358); transmit stays in electrical idle while its panel is
loaded, until OUT (R396), and while its link is FAILED (R355). A receiver that is off detects no signal. -/
def lnPower (s : State) (k : Nat) : State :=
  let x := panelOf s (k / 4)
  let held := (x.iso == 1 && !x.out && lnMode s k != 3) || (lnMode s k != 0 && lnState s (lnLead s k) == 6)
  let t := lnPutField (lnPutField s k 59 58 (if held then min 1 (txReq s k) else txReq s k)) k 57 56 (rxReq s k)
  if rxReq s k = 0 then lnPutField t k 55 55 0 else t

/-- What a link's transmitter sends. -/
def lkSend (s : State) (l : Nat) (b : LnOut) : State :=
  let x := lkOf s l
  lkPut s l { x with out := x.out ++ [b] }

def ctlIDLE : Nat := 0x1E
def ctlACK : Nat := 0x33
def ctlNAK : Nat := 0x4B
def ctlAM : Nat := 0x55
def ctlRESTRIPE : Nat := 0x66
def ctlCAP : Nat := 0x78
def ctlABORT : Nat := 0x87
def ctlSLEEP : Nat := 0x99

/-- The lanes of a link with BLK, LOST or another bit of LN_STAT set as given. -/
def lnEach (s : State) (l hi lo v : Nat) : State :=
  (lnLanes s l).foldl (fun t k => lnPutField t k hi lo v) s

/-- OK of LN_RCLK falls where the lane it names loses lock (R365). -/
def rclkLoss (s : State) (l : Nat) : State :=
  let q := quadOf s (l / 4)
  if fld q.rclk 25 24 = l % 4 then quadPut s (l / 4) { q with rclk := setBit q.rclk 30 false } else s

/-- A link or port leaves for DETECT, TRAIN or FAILED: no lane is aligned, its keys end, a frame in progress is given up.
The replay buffer and what has been delivered stay (R354). -/
def lkLeave (s : State) (l st : Nat) : State :=
  let x := lkOf s l
  let wasUp := lnState s l = 5
  let s1 := lkPut s l { x with
    keys := none, skip := none, opened := false, rxNew := none, rxConf := false, ams := 0, round := 0, parts := [], probed := 0, tries := 0
    resume := if wasUp ∧ lnNative s l = true then some x.rxSeq else x.resume
    txMask := 0, rxLost := false, txLost := false, txSleep := false, rxSleep := false, sinceAck := 0 }
  let s2 := lnEach (lnEach s1 l 54 54 0) l 52 52 0
  let s3 := (lnLanes s l).foldl rclkLoss (lnPutField s2 l 47 32 0)
  let s4 := lnSetState s3 l st
  if lnState s l = 6 then (lnLanes s l).foldl lnPower s4 else s4

/-- A lane of a link is lost in the receive direction (R352 to R354): the first loss restripes, a second one or the loss
of the only lane returns the link to DETECT. -/
def laneLost (s : State) (l logical : Nat) : State :=
  if lnState s l ≠ 5 ∨ lnNative s l = false then s
  else
    let x := lkOf s l
    let mask := fld (laneOf s l).stat 47 32
    if nbit mask logical = false then s
    else
      let nm := nclr mask logical
      let s0 := faultLog s 0x09 l nm
      if x.rxLost = true ∨ nm = 0 then lkLeave s0 l 1
      else
        let s1 := lkPut s0 l { x with rxLost := true, rxNew := some nm, rxConf := false, ams := 0 }
        let s2 := lnPutField s1 (l + logical) 52 52 1
        lkSend s2 l { kind := ctlRESTRIPE, val := nm }

/-- How many lanes bring-up needs (R355). -/
def lkNeeds (s : State) (l : Nat) : Nat := max 1 (lnWidth s l - 1)

/-- A lane taken away by a request (R360): a native link loses it, an Ethernet port goes down; during bring-up it counts
as failing in the state under way. -/
def laneTaken (s : State) (k : Nat) : State :=
  let l := lnLead s k
  if lnMode s k = 0 ∨ lnState s l = 0 ∨ lnState s l = 6 then s
  else if lnState s l = 5 then
    if lnNative s l then laneLost s l (k - l) else lkLeave s l 1
  else
    let x := lkOf s l
    let y := { x with probed := nclr x.probed (k - l), txMask := nclr x.txMask (k - l) }
    if popc y.txMask < lkNeeds s l ∧ 2 ≤ lnState s l then lkLeave s l 1 else lkPut s l y

/-! ### Capability exchange (R326, R356, R357) -/

/-- A capability record (R356). -/
def capRecord (mask resume : Nat) (nonce kcv : List Byte) : List Byte :=
  [BitVec.ofNat 8 1] ++ leBytes 2 mask ++ [16] ++ leBytes 2 512 ++ nonce ++ leBytes 8 resume ++ kcv

def capNonce (r : List Byte) : List Byte := (r.drop 6).take 16
def capMask (r : List Byte) : Nat := leNat ((r.drop 1).take 2)
def capResume (r : List Byte) : Nat := leNat ((r.drop 22).take 8)
def capKcv (r : List Byte) : List Byte := (r.drop 30).take 8

/-- The three parts of a round sent (R347, R356): 42 bytes, the record and four zeros. -/
def capSend (s : State) (l round : Nat) (r : List Byte) : State :=
  let b := r ++ List.replicate 4 0
  (List.range 3).foldl (fun t i =>
    lkSend t l { kind := ctlCAP, val := 16 * round + i, bytes := (b.drop (14 * i)).take 14 }) s

/-- CAP is entered, or an attempt begins again: a fresh nonce and round 1 (R326, R355). Without the TRNG no nonce can be
drawn and the exchange waits (R561). -/
def capStart (s : State) (l : Nat) : State :=
  let x := lkOf s l
  if bitOf s.sec.state 51 = false then lkPut s l { x with round := 0, parts := [] }
  else
    let rec0 := capRecord x.txMask (x.resume.getD (2 ^ 64 - 1)) (trngBytes s.fresh 16) (List.replicate 8 0)
    let s1 := bump (lkPut s l { x with round := 1, parts := [], mine := rec0, theirs := [] }) 2
    capSend s1 l 1 rec0

/-- Both ends exchange capabilities again under the session's RESUME (R327, R354). -/
def lkRekey (s : State) (l : Nat) : State :=
  let x := lkOf s l
  capStart (lnSetState (lkPut s l { x with resume := some x.rxSeq, tries := 1 }) l 4) l

/-- The largest payload a link takes, in units of 32 bytes: the smaller of the two ends' limits (R356). -/
def lkUnits (s : State) (l : Nat) : Nat := min 16 (((lkOf s l).theirs.getD 3 16).toNat)

/-- The link secret of a link's slot, as bytes (R325, R681). -/
def linkSecret (s : State) (l : Nat) : List Byte :=
  (tget [] s.sec.links (fld (laneOf s l).cfg 27 24)).flatMap (fun w => leBytes 8 w.toNat)

/-- KCV of R357 over the two nonces, the lower one first (R326). A link without encryption has none (R367). -/
def kcvOf (s : State) (l : Nat) (n1 n2 : List Byte) : List Byte :=
  if lnMode s l = 3 then List.replicate 8 0
  else
    let ab := if leNat n1 < leNat n2 then n1 ++ n2 else n2 ++ n1
    (hmac (linkSecret s l) (ascii "IDVAS-KCV" ++ ab)).take 8

/-- The keys and salts that two nonces give the end whose nonce is the first (R326). -/
def linkKeys (s : State) (l : Nat) (mine theirs : List Byte) : LinkKeys :=
  let low := decide (leNat mine < leNat theirs)
  let o := kdf (linkSecret s l) "IDVAS-LINK" (if low then mine ++ theirs else theirs ++ mine) 72
  let key := fun (i : Nat) => keyOf ((o.drop i).take 32)
  let salt := fun (i : Nat) => BitVec.ofNat 32 (beNat ((o.drop i).take 4))
  if low then { txKey := key 0, rxKey := key 32, txSalt := salt 64, rxSalt := salt 68 }
  else { txKey := key 32, rxKey := key 0, txSalt := salt 68, rxSalt := salt 64 }

/-- The header of a frame (R327). -/
def frameHead (ftype units seq rsvd : Nat) : List Byte := leBytes 1 ftype ++ leBytes 1 units ++ leBytes 2 seq ++ leBytes 4 rsvd

/-- A frame as sent, its payload and tag under the link's keys; the boot link has none (R327, R367). -/
def frameBlock (x : Link) (f : NSent) : LnOut :=
  let h := frameHead f.ftype (f.payload.length / 32) f.seq 0
  let b := match x.keys with
    | some k => gcmSeal k.txKey (k.txSalt ++ BitVec.ofNat 64 f.seq) h f.payload
    | none => f.payload ++ blockBytes (Config.bootTag (h ++ f.payload))
  { kind := 0, val := f.seq, bytes := h ++ b }

/-- What a frame received under SEQ k carries, where its tag is good (R327, R328). -/
def frameOpen (x : Link) (k : Nat) (f : NFrame) : Option (List Byte) :=
  let h := frameHead f.ftype.toNat f.units.toNat f.seq.toNat f.rsvd.toNat
  if f.payload.length ≠ 32 * f.units.toNat then none
  else match x.keys with
    | some y => gcmOpen y.rxKey (y.rxSalt ++ BitVec.ofNat 64 k) h (f.payload ++ blockBytes f.tag)
    | none => if f.tag = Config.bootTag (h ++ f.payload) then some f.payload else none

/-- The link becomes ACTIVE (R354, R355): the lanes in both masks; the frames the partner has are dropped from the
replay buffer and the others go first in the new session. -/
def lkActive (s : State) (l : Nat) : State :=
  let x := lkOf s l
  let m := x.txMask &&& capMask x.theirs
  let keep := (x.replay.filter (fun f => decide (capResume x.theirs ≤ f.seq))).zipIdx.map
    (fun p => { p.1 with seq := p.2 })
  let lostOne := decide (popc m < lnWidth s l)
  let y := { x with keys := if lnMode s l = 2 then some (linkKeys s l (capNonce x.mine) (capNonce x.theirs)) else none }
  let s1 := lkPut s l { y with
    txSeq := keep.length, rxSeq := 0, replay := keep, txMask := m
    rxLost := lostOne, txLost := lostOne, tries := 0, sinceAck := 0, skip := none, resume := some 0
    out := x.out ++ keep.map (frameBlock y) }
  let w := (laneOf s1 l).stat
  lnSetState (lanePut s1 l { laneOf s1 l with stat := setFld (incFld w 31 16) 47 32 m }) l 5

/-- A round of the partner's record is complete (R326, R355, R357). -/
def capRound (s : State) (l round : Nat) : State :=
  let x := lkOf s l
  let r := ((List.range 3).flatMap (fun i => tget [] x.parts (16 * round + i))).take 38
  if round = 1 then
    if capNonce r = capNonce x.mine then capStart s l
    else
      let kcv := kcvOf s l (capNonce x.mine) (capNonce r)
      let mine := x.mine.take 30 ++ kcv
      capSend (lkPut s l { x with theirs := r, mine := mine, round := 2 }) l 2 mine
  else if capKcv r = capKcv x.mine then lkActive (lkPut s l { x with theirs := r }) l
  else (lnLanes s l).foldl lnPower (lnSetState (lnPutField (lkPut s l { x with round := 0 }) l 51 51 1) l 6)

/-- A frame goes out under the next SEQ (R327, R350); at 2^48 both ends exchange capabilities again. -/
def lkSendFrame (s : State) (l ftype : Nat) (payload : List Byte) : State :=
  let x := lkOf s l
  let f : NSent := { seq := x.txSeq, ftype := ftype, payload := payload }
  let s1 := lkPut s l { x with txSeq := x.txSeq + 1, replay := x.replay ++ [f], out := x.out ++ [frameBlock x f] }
  if x.txSeq + 1 = 2 ^ 48 then lkRekey s1 l else s1

/-- Whether a link may send a frame now: ACTIVE, awake, room in the replay buffer (R350, R359). -/
def lkMaySend (s : State) (l : Nat) : Bool :=
  lnNative s l && lnState s l == 5 && !(lkOf s l).txSleep && decide ((lkOf s l).replay.length < 512)

/-- A frame is sent, or waits at its source (R350, R359). -/
def lkOffer (s : State) (l ftype : Nat) (payload : List Byte) : State :=
  if lkMaySend s l ∧ (lkOf s l).waiting.isEmpty = true then lkSendFrame s l ftype payload
  else
    let x := lkOf s l
    lkPut s l { x with waiting := x.waiting ++ [{ seq := 0, ftype := ftype, payload := payload }] }

/-- Frames that waited go out while the link takes them. -/
def lkFlush : Nat → State → Nat → State
  | 0, s, _ => s
  | fuel + 1, s, l =>
    match (lkOf s l).waiting with
    | [] => s
    | f :: t =>
      if lkMaySend s l then
        lkFlush fuel (lkSendFrame (lkPut s l { lkOf s l with waiting := t }) l f.ftype f.payload) l
      else s

/-- A frame is discarded and counted (R328, R349). -/
def lkDiscard (s : State) (l : Nat) : State :=
  lanePut s l { laneOf s l with err := satFld (laneOf s l).err 23 16 1 }

/-- Every lane of a quad returns to OFF: what a UNIT reset of the quad does to its lanes, links and queues (R361, R364,
R368). Lanes of links led from outside are lost. -/
def quadReset (s : State) (q : Nat) : State :=
  let ls := (List.range 4).map (fun i => 4 * q + i)
  let s1 := ls.foldl (fun t k =>
    if lnMode t k ≠ 0 ∧ lnLead t k / 4 ≠ q then laneTaken t k else t) s
  let s2 := ls.foldl (fun t k =>
    let t1 := if lnIsLead t k then lkPut (lkLeave t k 0) k {} else t
    let x := laneOf t1 k
    lanePut t1 k { x with
      stat := x.stat &&& (fldMask 51 51 ||| fldMask 31 16), dqCtl := 0x2000000000000000, stalled := false, txPart := []
      txBad := false, cwBad := 0 }) s1
  let x := quadOf s2 q
  quadPut s2 q { x with ctl := 0, strms := [], rclk := setBit x.rclk 30 false }

end Sys2Proof.Machine
end

