-- ==== Sys2Proof/Machine/ResetOps.lean ====
section
/-! DEFINITION. What each reach of reset clears, how a source joins an episode, alarms, and the wake of power domains:
operations that many commands share (R38, R39, R497 to R503, R518 to R531, R562 to R566). -/

namespace Sys2Proof.Machine
open Sys2Proof

/-! ### Units -/

/-- Every accepted request of the units p picks is answered with ISOLATED (R39, R41). -/
def answerWhere (s : State) (p : Nat → Bool) : State :=
  let mine := s.noc.accepted.filter (fun r => p r.unit)
  respond { cutAll s mine with noc := { s.noc with accepted := s.noc.accepted.filter (fun r => !p r.unit) } }
    (mine.map (fun r => r.err 3))

/-- The wrapper of a unit in reset: closed until the unit is ready again (R38, R39). -/
def wrapReset (s : State) (u : Nat) : State :=
  wrapPut (leaveNet (wrapAnswer s u 3) (· == u)) u { wrapOf s u with st := .stopped, enableAfter := false, off := false }

/-- The wrapper of a unit whose panel is reset (R38, R39): a drain ends at once. It is closed while the reset is in effect; what
keeps it closed afterwards is its domain's sleep or its panel's isolation (log entry 46). -/
def wrapPanelReset (s : State) (load : Bool) (u : Nat) (w : Wrapper) : Wrapper :=
  let shut := (panelOf s (unitPanel u)).iso != 0 || (unitDomain u).any (fun n => decide (2 ≤ (domOf s n).cur))
  { w with st := if shut then (if w.st = .running then .running else .stopped) else .running
           enableAfter := false, off := load && w.off }

/-- A UNIT reset of an engine (R39, R142, R180, R182). -/
def engineReset (s : State) (e last : Nat) : State :=
  let s1 := wrapReset s e
  engPut s1 e (engUnitReset (eng s1 e) last)

/-- A bank reset by its group, its panel or a wider reach (R196, R206, R218); HUB keeps a bank of an isolated panel (R419). -/
def bankReset (s : State) (n reach : Nat) (b : Bank) : Bank :=
  let c := bankUnitReset b (bankClears b reach)
  if (panelOf s (bankPanel n)).iso = 0 then c else bankGive c {}

/-- A UNIT reset of a bank group (R206, R218). -/
def groupReset (s : State) (g : Nat) : State :=
  let s1 := wrapReset s (4096 + g)
  { s1 with banks := tmap {} (fun n b => if n / 8 = g then bankReset s n 1 b else b) s1.banks }

/-- The devices of a controller go into self-refresh, what waits for its write-back and dirty metadata written back first (R274, R285, R303). A training under
way stops at once; a recovery or quick retrain leaves the controller FAILED when a reset meets it (R285, R291). -/
def ctrlStop (s : State) (m : Nat) (byReset : Bool) : State :=
  let c := mcOf s m
  match mcState c with
  | 1 => mcPut s m (mcSet c 0)
  | 2 =>
    let x := ((c.wbs.foldl GS.writeBack (gsOf s m)).flushMeta 65536).syncDirty
    gsKeep s { x with mc := { mcSet x.mc 4 with stat := setBit (setFld x.mc.stat 63 60 4) 59 false, rows := [], stopping := true } }
  | 3 => if byReset then mcPut s m (mcSet c 5) else mcPut s m { c with stopping := true }
  | 6 => if byReset then mcPut s m (mcSet c 5) else mcPut s m { c with stopping := true }
  | _ => s

/-- The wake, enable or reset release of a controller (R285): a quick retrain, or training from its first step. -/
def ctrlStart (s : State) (m : Nat) : State :=
  let c := mcOf s m
  match mcState c with
  | 4 => mcPut s m { mcSet c 6 with stopping := false }
  | 0 => if bitOf c.cfg 32 then mcPut s m { mcSet c 1 with stopping := false } else s
  | _ => mcPut s m { c with stopping := false }

def controllerReset (s : State) (m : Nat) : State := ctrlStop (wrapReset s (5000 + m)) m true

/-- A UNIT reset of a unit named as RST_CMD names it (R546): kind, index. LASTRST records 4. -/
def unitReset (s : State) (kind idx : Nat) : State :=
  match kind with
  | 0 => engineReset s idx 4
  | 1 => groupReset s idx
  | 2 => controllerReset s idx
  | _ => quadReset (wrapReset ((List.range 4).foldl (fun t i => wrapReset t (5200 + 4 * idx + i)) s) (5100 + idx)) idx

/-! ### Panels, WARM, HUB, COLD -/

/-- Configuration returns every cell of a panel to its initial state, RSTEN or not (R44, R57, R58, R62, R64). -/
def cellsConfigured (s : State) (p : Nat) : State := { s with cells := tfilter (fun c => cellPanel c != p) s.cells }

/-- The user state of the panels sel picks (R518, R519, R680): trees, cells, clocks, ports, engines and their banks, and the
wrappers. `own` gives LASTRST of each engine; a reach of 1 is the isolation of a load, which resets no unit. -/
def panelsReset (s : State) (sel : Nat → Bool) (reach : Nat) (own : Nat → Nat) : State :=
  let pick := fun (u : Nat) => (decide (u < 3840) && sel (u / 120)) ||
    (decide (4096 ≤ u ∧ u < 4480) && sel ((u - 4096) / 12)) || (decide (6000 ≤ u ∧ u < 8048) && sel ((u - 6000) / 64))
  let s1 := leaveNet (answerWhere (if sel 1 then lgRestart s else s) pick) pick
  { s1 with
    wraps := tmap {} (fun u (w : Wrapper) => if pick u then wrapPanelReset s (reach == 1) u w else w) s1.wraps
    cells := tfilter (fun c => !(sel (cellPanel c) && nbit (cellCtl s c) 10)) s1.cells
    rclks := tmap {} (fun r (x : Rclk) => if sel (r / 16) then
      { x with
        rst := true, rrst := false, gated := false, pend := none, queued := none, forced := false, fclkCnt := 0
        src := fld (rclkCfg s r) 49 48 } else x) s1.rclks
    ports := tfilter (fun k => !sel (k / 64)) s1.ports
    engines := tmap {} (fun e (x : Engine) => if sel (e / 120) then
      { engUnitReset x (own e) with ctl := 0, wdt := 0x000000000000000A } else x) s1.engines
    banks := tmap {} (fun n (b : Bank) => if reach ≠ 1 ∧ sel (n / 96) = true then bankReset s n reach b else b) s1.banks }

/-- LASTRST of every engine of a panel after a PANEL reset: 2 for the one whose watchdog caused it, else 5 (R182). -/
def panelLast (s : State) (p : Nat) (byEngine : Option Nat) : State :=
  (List.range 120).foldl (fun t i =>
    engPut t (120 * p + i) { eng t (120 * p + i) with lastrst := if byEngine = some (120 * p + i) then 2 else 5 }) s

/-- PANEL reset of panel p; `byEngine` is the engine whose watchdog caused it (R178, R182). -/
def panelReset (s : State) (p : Nat) (byEngine : Option Nat) : State :=
  panelLast (panelsReset s (· == p) 2 (fun _ => 5)) p byEngine

/-- Publications that p picks are withdrawn (R654). -/
def withdraw (s : State) (p : Word → Bool) : State :=
  { s with svc := { s.svc with pubs := tmap 0 (fun _ w => if bitOf w 63 && p w then setBit w 63 false else w) s.svc.pubs } }

/-- PNL_STAT.STATE of a panel; leaving RUN withdraws what its ports publish (R414, R654), and a change notifies (R445). -/
def panelState (s : State) (p : Nat) : Nat := fld (panelOf s p).stat 63 60
def panelSetState (s : State) (p st : Nat) : State :=
  if panelState s p = st then s
  else
    let x := panelOf s p
    let s1 := notify (panelPut s p { x with stat := setFld x.stat 63 60 st }) (0x2040 + p) 0
    if st = 1 then s1 else withdraw s1 (fun w => fld w 15 11 == p)

/-- CFG_STAT's fields (R409). -/
def ldState (s : State) : Nat := fld s.ld.stat 63 60
def ldPhase (s : State) : Nat := fld s.ld.stat 59 56
def ldSet (s : State) (st : Nat) : State := { s with ld := { s.ld with stat := setFld s.ld.stat 63 60 st } }

/-- The controllers that serve an address range of external memory. -/
def servers (s : State) (a n : Nat) : List Nat :=
  let sl := fld s.gcfg 33 32
  let w := 2 ^ sl
  let lo := a / 2 ^ (34 + sl)
  let hi := (a + n - 1) / 2 ^ (34 + sl)
  (List.range 8).filter (fun m => decide (lo ≤ m / w) && decide (m / w ≤ hi))

/-- An area of external memory left undefined (R394): its lines hold free words until they are written. -/
def basteLoose (s : State) (a : Nat) : State :=
  let mm := memMap s
  let t := (servers s a (2 ^ 28)).foldl (fun t m =>
    let g := grdOf t m
    let inside := fun (n : Nat) =>
      let b := mm.address m (n / 8 % 128) (n / 8 / 128) (n % 8)
      decide (a ≤ b) && decide (b < a + 2 ^ 28)
    grdPut t m { g with lines := tfilter (fun n => !inside n) g.lines, loose := (a, s.fresh) :: g.loose }) s
  bump t (2 ^ 25)

/-- The basting area is discarded: on-chip banks' valid bits clear, an area of external memory is left undefined (R394). -/
def basteDiscard (s : State) : State :=
  let t := { s with ld := { s.ld with rx := [], body := [] } }
  if s.ld.area = 1 then { t with banks := tmap {} (fun n b => if 640 ≤ n ∧ n < 768 then bankClear b else b) s.banks }
  else if s.ld.area = 2 then basteLoose t s.ld.base
  else t

/-- A panel becomes blank (R389, R406): frames blank, held as R396 states, its banks owned by HUB. -/
def panelBlank (s : State) (p : Nat) : State :=
  let s1 := lgGone (cellsConfigured (panelsReset s (· == p) 1 (fun e => (eng s e).lastrst)) p) p
  let x := panelOf s1 p
  let s2 := panelSetState (panelPut s1 p { x with
    iso := 0, drained := false, seam := x.seam, sr := false, we := false, out := false
    stat := setBit x.stat 59 false, copy := [] }) p 0
  { s2 with
    frames := tfilter (fun k => k / 2576 != p) s2.frames
    rclks := tfilter (fun r => r / 16 != p) s2.rclks
    banks := tmap {} (fun n (b : Bank) => if n / 96 = p then
      { bankGive b {} with imgOwn := {} } else b) s2.banks }

/-- A load ends in failure (R406): before COMMIT nothing has changed; in COMMIT every panel it names becomes blank. -/
def loadFail (s : State) (code : Nat) : State :=
  let commit := ldState s = 3
  let named := bitsOf 32 (fld s.ld.stat 31 0)
  let s1 := if commit then named.foldl panelBlank s else s
  let s2 := basteDiscard s1
  ldSet { s2 with ld := { s2.ld with
    stat := setFld s2.ld.stat 47 40 code, want := 0, checked := false, waitMem := false, records := [], regs := []
    secrets := [], isolated := false, area := 0 } } 0

/-- A recovery ends with its panel HELD (R431, R432). -/
def panelHold (s : State) (p : Nat) : State :=
  let x := panelOf s p
  panelSetState (panelPut s p { x with iso := 3, sr := false, we := false, out := false }) p 5

/-- A UNIT reset of a controller or a lane quad, which no reach below COLD covers (R519). -/
def narrowOwn (n : Nat × Nat × Nat) : Bool := n.1 == 1 && decide (2 ≤ n.2.1)

/-- WARM asserts (R518, R529): user state clears, a load in progress fails with ABORTED, a recovery ends with its panel
HELD, what is published is withdrawn, the key input words clear. -/
def warmAssert (s : State) : State :=
  let s1 := panelsReset s (fun _ => true) 4 (fun _ => 0)
  let s2 := if ldState s1 ≠ 0 ∧ ldState s1 ≤ 3 then loadFail s1 0x0E
            else if ldState s1 ≠ 0 then ldSet { s1 with ld := { s1.ld with stat := setFld s1.ld.stat 47 40 0x0E } } 0 else s1
  let s3 := match s2.ld.recs with
    | [] => s2
    | p :: _ => { panelHold s2 p with ld := { s2.ld with recs := [] } }
  let s4 := { s3 with panels := tmap {} (fun _ (x : Panel) => if fld x.stat 63 60 = 1 then
      { x with sr := false, we := false, out := false } else x) s3.panels }
  let s5 := withdraw s4 (fun _ => true)
  { s5 with sec := { s5.sec with keyin := [0, 0, 0, 0] }, rst := { s5.rst with narrow := s5.rst.narrow.filter narrowOwn } }

/-- A fuse word being programmed is left incomplete, with some of its bits blown (R538, R555). -/
def fuseStop (s : State) : State :=
  match s.sec.blow with
  | none => s
  | some (n, w) =>
    let old := tget 0 s.sec.fuses n
    bump { s with sec := { s.sec with
      fuses := tset 0 s.sec.fuses n (old ||| (w &&& Config.freeWord s.fresh)), blow := none
      fusstat := setBit s.sec.fusstat 63 false } } 1

/-- Every session closes (R530, R637), the carriers that run on taking the CLOSE; a stream a session was sending fails
with SOURCE (R646). -/
def hubSessions (s0 : State) : State :=
  let streams := s0.svc.slots.any (fun p => p.2.streams)
  let s := if streams = true ∧ ldState s0 = 1 ∧ s0.ld.src = 3 then
      let t := loadFail s0 6
      { t with ld := { t.ld with cold := 0 } }
    else s0
  let t := (s.svc.slots.map (fun p => p.1)).foldl (fun t k => if (sessOf t k).path = 2 then sessFree t k else sessBye t k) s
  { t with svc := { t.svc with
    slots := [], queue := [], host := [], wait := none, outbox := t.svc.outbox.filter (fun m => m.path != 2) } }

/-- HUB asserts (R530, R538, R543): sessions close, a fuse program stops with its word incomplete, an orderly shutdown
becomes urgent, and the management controller is away until its firmware is loaded. -/
def hubAssert (s0 : State) : State :=
  let s := hubSessions s0
  { s with
    sec := { s.sec with keyin := [0, 0, 0, 0], fusstat := setBit s.sec.fusstat 63 false }
    st := { s.st with todo := [], commit := setBit s.st.commit 62 false }
    rst := { s.rst with hubLoading := true, urgent := s.rst.urgent || decide (fld s.rst.state 63 59 = 22) } }

/-- COLD clears everything but the always-on domain and BBRAM (R518): the straps and the cause record, the fuses, the
battery domain's bits, a zeroisation under way and its scope, SEC_ALMSTAT, what waits outside, and the messages put on the
carriers before it (R641). -/
def coldAssert (s : State) : State :=
  { ({} : State) with
    pending := s.pending, now := s.now, fresh := s.fresh
    rst := { s.rst with
      state := s.rst.state &&& (fldMask 57 52 ||| fldMask 51 50), narrow := [], urgent := false, shdnAck := false
      hubLoading := true }
    sec := { ({} : Sec) with
      almstat := s.sec.almstat, bbr := s.sec.bbr &&& fldMask 58 56, fuses := s.sec.fuses, commit := s.sec.commit
      bbram := s.sec.bbram, tamperLow := s.sec.tamperLow, vfuse := s.sec.vfuse, zscope := s.sec.zscope
      state := setBit 0 50 (s.sec.zscope != 0) }
    svc := { ({} : Svc) with
      node := s.svc.node, phys := s.svc.phys, outbox := s.svc.outbox.filter (fun m => m.path != 2) }
    pins := { s.pins with cfgDone := false, boundary := [] }
    dbg := { ({} : Dbg) with ir := s.dbg.ir }
    st := { ({} : Stest) with began := s.now } }

/-- POWER-ON also clears the always-on domain, the straps, the cause record and SEC_ALMSTAT; a zeroisation ends where it
stands, with ZPEND left (R518, R565, R566). -/
def powerOnAssert (s : State) : State :=
  let t := coldAssert s
  { t with
    rst := { t.rst with state := 0, cause := 0, hubTimes := [] }
    sec := { t.sec with almstat := 0, zscope := 0, state := 0 }
    svc := { ({} : Svc) with outbox := t.svc.outbox }
    pins := { ({} : Pins) with modesel := 0 } }

/-! ### Episodes (R520 to R531) -/

/-- STAGE of RST_STATE, with its notification (R548, R549). -/
def stage (s : State) : Nat := fld s.rst.state 63 59
def setStage (s : State) (n : Nat) : State :=
  if stage s = n then s
  else notify { s with rst := { s.rst with state := setFld s.rst.state 63 59 n } } 0x1003 0

/-- Full service (R539 step 21): every PAM4 port and link is ACTIVE after the main start-up. -/
def fullCheck (s : State) : State :=
  if stage s = 20 ∧ (List.range 128).all (fun l => !(lnIsLead s l && bitOf (laneOf s l).cfg 59) || lnState s l == 5) = true then
    setStage s 21 else s

/-- A source of reach HUB, WARM or wider asserts: it starts or joins an episode (R523, R525, R531). The fourth HUB
episode within 1 s is widened to COLD (R524); in OFFLINE a WARM request is widened to COLD, and during a shutdown WARM is
ignored (R543, R544). -/
def assertSource (s : State) (code reach : Nat) : State :=
  let r := s.rst
  let starts := !r.active
  let hubs := r.hubTimes.filter (fun t => decide (s.now < t + 1000000))
  let reach1 := if reach = 3 ∧ starts = true ∧ 3 ≤ hubs.length then 5 else reach
  let reach2 := if reach1 = 4 ∧ stage s = 23 then 5 else reach1
  if reach2 = 4 ∧ stage s = 22 then s
  else
    let r1 := { r with
      asserted := (r.asserted.filter (fun a => a.1 != code)) ++ [(code, reach2)]
      covered := (if starts then [] else r.covered) ++ [(code, reach2)]
      active := true
      seen := if starts then 2 ^ (code - 1) else r.seen ||| 2 ^ (code - 1)
      eff := if starts then reach2 else max r.eff reach2
      stretched := r.stretched && r.active && reach2 == 3 && r.eff == 4
      driving := r.driving || decide (4 ≤ reach2)
      pinHigh := r.pinHigh && !decide (4 ≤ reach2)
      hubTimes := if reach = 3 ∧ starts = true then hubs ++ [s.now] else hubs }
    let s0 := if reach2 = 4 then s else fuseStop s
    let s1 := { s0 with rst := r1 }
    let s2 := match reach2 with
      | 3 => hubAssert s1
      | 4 => warmAssert s1
      | 5 => coldAssert s1
      | _ => powerOnAssert s1
    { s2 with rst := { s2.rst with
      asserted := r1.asserted, covered := r1.covered, active := true, seen := r1.seen, eff := r1.eff
      stretched := r1.stretched, driving := r1.driving, pinHigh := r1.pinHigh, hubTimes := r1.hubTimes } }

/-- A PANEL or UNIT reset by a command or a watchdog (R518 to R520): ignored from the start of a shutdown on (R543,
R544); held until its release. -/
def narrowReset (s : State) (reach kind idx : Nat) : State :=
  if 22 ≤ stage s then s
  else
    let s1 := if reach = 2 then panelReset s idx none else unitReset s kind idx
    { s1 with rst := { s1.rst with narrow := s1.rst.narrow ++ [(reach, kind, idx)] } }

/-! ### Alarms and zeroisation (R562 to R566) -/

def alarmTamper (c : Nat) : Bool := [1, 2, 3, 7, 8, 9, 10, 11].contains c

/-- A zeroisation of a scope begins (1 debug, 2 alarm): ZPEND first, then ZBUSY; one under way widens (R564, R566). -/
def zeroStart (s : State) (scope : Nat) : State :=
  { s with sec := { s.sec with
    zscope := s.sec.zscope ||| scope, bbr := setBit s.sec.bbr 56 true, state := setBit s.sec.state 50 true
    bbram := tset 0 s.sec.bbram 5 (setBit (tget 0 s.sec.bbram 5) 1 true) } }

/-- Alarms raised in one cycle (R562 to R564). -/
def alarms (s : State) (codes : List Nat) : State :=
  if codes.isEmpty then s
  else
    let tmin := fld (fuseWord s 0) 17 16
    let tr := max (fld s.sec.almcfg 3 2) tmin
    let dr := min 2 (fld s.sec.almcfg 1 0)
    let resp := codes.foldl (fun r c => max r (if alarmTamper c then tr else dr)) 0
    let seen := codes.foldl (fun w c => setBit w (c - 1) true) s.sec.almstat
    let w := setFld (setFld (satFld seen 63 48 codes.length) 47 40 (codes.foldl min 255)) 39 38 resp
    let s1 := { s with sec := { s.sec with almstat := w } }
    let s2 := if 1 ≤ resp then notify s1 0x8002 0 else s1
    let s3 := if resp = 2 then { s2 with sec := { s2.sec with state := setBit s2.sec.state 59 true } } else s2
    if resp = 3 then assertSource (zeroStart s3 2) 4 5 else s3

/-! ### Power domains (R497 to R503) -/

/-- The hardware vote of a domain (R141, R361, R497). -/
def hwVote (s : State) (n : Nat) : Bool :=
  if n < 0x1E0 then
    let p := n / 15
    (decide (2 ≤ panelState s p ∧ panelState s p ≠ 5) && !(panelOf s p).we) ||
    (List.range 8).any (fun i =>
      let x := eng s (8 * n + i)
      x.st == EngSt.running || x.st == EngSt.waiting ||
        (x.st == EngSt.halted && (!x.xfers.isEmpty || !x.vb.isEmpty)))
  else if 0x200 ≤ n ∧ n < 0x380 then
    (List.range 8).any (fun i => fld (bank s (8 * (n - 0x200) + i)).pwr 1 0 == 0)
  else if 0x400 ≤ n ∧ n < 0x420 then (List.range 4).any (fun i => fld (laneOf s (4 * (n - 0x400) + i)).stat 59 58 != 0)
  else if 0x420 ≤ n ∧ n < 0x440 then (List.range 4).any (fun i => fld (laneOf s (4 * (n - 0x420) + i)).stat 57 56 != 0)
  else if 0x440 ≤ n ∧ n < 0x448 then
    let m := n - 0x440
    [1, 3, 6].contains (mcState (mcOf s m)) || gState (grdOf s m) == 1 || gState (grdOf s m) == 3 ||
      (s.ld.area == 2 && ldState s != 0 && (servers s s.ld.base (2 ^ 28)).contains m) ||
      (s.ld.recs.head?).any (fun p => (servers s (panelOf s p).copyBase 6851656).contains m)
  else if 0x460 ≤ n ∧ n < 0x480 then [2, 3, 4, 6].contains (panelState s (n - 0x460))
  else false

/-- A domain wakes, recorded in PWR_WAKE and LASTSRC (R501, R502): 1 vote, 2 packet, 3 fabric access, 4 loader, 5 debug,
6 a domain of the die. One entering its state latches the wake; one waking merges it. -/
def wakeOne (s : State) (n src : Nat) : State :=
  let d := domOf s n
  if d.cur = 5 then
    match d.latched with
    | some _ => s
    | none => domPut s n { d with latched := some src }
  else if 2 ≤ d.cur ∧ d.cur ≤ 4 then
    let s1 := domPut s n { d with into := d.cur, cur := 6, lastsrc := src, replay := false }
    let w := s1.pwr.wake
    let s2 := { s1 with pwr := { s1.pwr with wake := mkWord [(63, 63, 1), (61, 59, src), (58, 48, n), (31, 0, fld w 31 0 + 1)] } }
    if 0x440 ≤ n ∧ n < 0x448 then ctrlStart s2 (n - 0x440) else s2
  else s

/-- The die wakes first (R501). -/
def wakeDomain (s : State) (n src : Nat) : State :=
  let d := 0x480 + domDie n
  wakeOne (if n = d then s else wakeOne s d 6) n src

/-- A controller that starts holds its hardware vote, which wakes its domain (R497, R501). -/
def ctrlVote (s : State) (m : Nat) : State :=
  if 2 ≤ (domOf s (0x440 + m)).cur ∧ [1, 6].contains (mcState (mcOf s m)) = true then wakeDomain s (0x440 + m) 1 else s

end Sys2Proof.Machine
end

