-- ==== Sys2Proof/Machine/Power.lean ====
section
/-! DEFINITION. The fabric power governor, the operating-point sequencers and the power domains
(R73 to R78, R490 to R503, R512 to R516). -/

namespace Sys2Proof.Machine
open Sys2Proof

/-! ### Operating points (R490 to R496) -/

/-- Millivolts and φk in thousandths of operating point k (R490). -/
def oppMv (k : Nat) : Nat := [650, 680, 710, 740, 770, 800, 825, 850].getD k 850
def oppPhi (k : Nat) : Nat := [600, 660, 720, 780, 840, 900, 950, 1000].getD k 1000

def oppCUR (o : Opp) : Nat := fld o.reg 18 16
def oppVCUR (o : Opp) : Nat := fld o.reg 22 20
def oppLOW (o : Opp) : Nat := fld o.reg 26 24
def oppTGT (o : Opp) : Nat := fld o.reg 14 12

/-! ### References and VCO frequencies (R474 to R484) -/

/-- The key of a reference: REFCLK0 to REFCLK3 are shared, every other code is the die's own (R478). -/
def refKey (d code : Nat) : Nat := if code < 4 then code else 32 * (d + 1) + code

/-- The recovered clock's OK (R365): the lane has lock and the output lies between 100 and 400 MHz. -/
def rclkOk (s : State) (q : Nat) : Bool :=
  let w := (quadOf s q).rclk
  let l := laneOf s (4 * q + fld w 25 24)
  let kbd := if bitOf l.cfg 59 then 13281250 * 2 ^ fld l.cfg 58 57 else 15625 * fld l.cfg 56 45
  let d := 16 * (fld w 15 8 + 1)
  bitOf w 31 && bitOf l.stat 55 && bitOf l.stat 54 && decide (100000 * d ≤ kbd) && decide (kbd ≤ 400000 * d)

/-- A recovered clock counts as a reference only while its OK is 1 (R365, R476, R478). -/
def recoveredOk (s : State) (d code : Nat) : Bool := decide (code < 0x10) || decide (0x18 ≤ code) || rclkOk s (8 * d + code - 0x10)

/-- A valid reference (R476). -/
def refOk (s : State) (d code : Nat) : Bool := code != 0x1F && s.clk.refs.contains (refKey d code) && recoveredOk s d code

def pllRef0 (p : Pll) : Nat := fld p.cfg 59 55
def pllRef1 (p : Pll) : Nat := fld p.cfg 54 50
def pllEn (p : Pll) : Bool := bitOf p.cfg 63
def pllLocked (p : Pll) : Bool := bitOf p.stat 62
def pllCoasting (p : Pll) : Bool := bitOf p.stat 61
def pllOn1 (p : Pll) : Bool := bitOf p.stat 60

/-- The frequency F0 names, in kHz (R505); 0 where unsupported. -/
def f0Khz (s : State) : Nat := [25000, 50000, 100000, 125000, 156250, 0, 0, 0].getD (fld s.clk.ref 50 48) 0

/-- The frequency of a reference as it was measured when it last became valid, in kHz (R476); a free value before that, and 0
for a code that R478 does not list. -/
def measuredKhz (s : State) (d code : Nat) : Nat :=
  let k := refKey d code
  if code = 0 then f0Khz s
  else if code < 4 ∨ (8 ≤ code ∧ code < 0x18) then
    (match tget 0 s.clk.nominal k with
    | 0 => Config.unmeasuredKhz k
    | n => n)
  else 0

/-- The frequency the PLLs take for a reference, in kHz: F0's for REFCLK0, the TPLL's by its settings for TCLK, the measured
one otherwise (R474, R476, R479). -/
def refKhz (s : State) (d code : Nat) : Nat :=
  if code = 4 then
    let p := pllOf s (10 * d + 9)
    let f := if pllOn1 p then measuredKhz s d (pllRef1 p) / (fld p.cfg 41 34 + 1) else measuredKhz s d (pllRef0 p) / (fld p.cfg 49 42 + 1)
    if fld p.odiv 6 0 = 0 then 0 else f * fld p.cfg 33 22 / fld p.odiv 6 0
  else measuredKhz s d code

/-- The VCO frequency of R479, before scaling, in kHz. -/
def vcoKhz (s : State) (i : Nat) (p : Pll) (on1 : Bool) : Nat :=
  let code := if on1 then pllRef1 p else pllRef0 p
  let r := if on1 then fld p.cfg 41 34 else fld p.cfg 49 42
  (if i % 10 = 9 then measuredKhz s (i / 10) code else refKhz s (i / 10) code) * fld p.cfg 33 22 / (r + 1)

/-- FVCO in MHz of a locked PLL (R484, R508). -/
def fvcoMhz (s : State) (i : Nat) (p : Pll) (on1 : Bool) : Nat :=
  let v := vcoKhz s i p on1
  (if bitOf p.cfg 62 then v * oppPhi (oppCUR (oppOf s (i / 10))) / 1000 else v) / 1000

/-- The locked scaled PLLs of a die run at the frequency of its operating point (R484, R493, R494, R508). -/
def scaledFollow (s : State) (d : Nat) : State :=
  (List.range 8).foldl (fun t k =>
    let i := 10 * d + k
    let p := pllOf t i
    if bitOf p.cfg 62 = true ∧ pllLocked p = true then
      pllPut t i { p with stat := setFld p.stat 11 0 (fvcoMhz t i p (pllOn1 p)) }
    else t) s

/-! ### Targets -/

/-- While a load is in COMMIT or STARTUP, or waits on a pin, targets are frozen (R492). -/
def oppFrozen (s : State) : Bool := [3, 4, 5].contains (fld s.ld.stat 63 60)

/-- The sequencer in use is past the PLL step of the main load (R404, R492). -/
def oppFree (s : State) : Bool := fld s.ld.stat 59 56 == 2 || bitOf s.ld.stat 32 && decide (2 ≤ fld s.ld.stat 51 48)

/-- TGT as R492 orders it: LOW before the main load's PLL step, then INITOP, then the governor's requests; clamped to
MINOP and MAXOP, MAXOP winning, and never below LOW. -/
def oppTarget (s : State) (d : Nat) : Nat :=
  let o := oppOf s d
  let want := if oppFree s then o.gov.getD (fld o.reg 10 8) else oppLOW o
  max (oppLOW o) (min (fld o.reg 2 0) (max (fld o.reg 6 4) want))

/-- A step begins toward the target, where none is under way (R493, R494, R496). With PWR_AVS.EN 0 no command is sent
and only the frequency follows. -/
def oppStart (s : State) (d : Nat) : State :=
  let o := oppOf s d
  let t := oppTGT o
  let avs := bitOf s.pwr.avs 63
  if o.step ≠ 0 then s
  else if oppCUR o < t then
    if avs then
      if t ≤ oppVCUR o then oppPut s d { o with step := 3, goal := t, reg := setBit o.reg 63 true }
      else oppPut s d { o with step := 1, goal := t, reg := setBit o.reg 63 true }
    else oppPut s d { o with step := 3, goal := t, reg := setBit o.reg 63 true }
  else if t < oppCUR o then oppPut s d { o with step := 4, goal := t, reg := setBit o.reg 63 true }
  else if avs = true ∧ t < oppVCUR o then oppPut s d { o with step := 5, goal := t, reg := setBit o.reg 63 true }
  else s

/-- The target is formed again and a step toward it begins; an unacknowledged command the target no longer needs ends
its step first (R495, R496). Nothing happens during the freeze of R492. -/
def oppRetarget (s : State) (d : Nat) : State :=
  if oppFrozen s then s
  else
    let o := oppOf s d
    let t := oppTarget s d
    let o1 := { o with reg := setFld o.reg 14 12 t }
    let failed := bitOf o.reg 62
    let moot := (o.step = 1 ∧ t ≤ oppVCUR o) ∨ (o.step = 5 ∧ oppVCUR o ≤ t)
    let o2 := if failed = true ∧ moot then
        { o1 with step := 0, reg := setBit (incFld o1.reg 47 32) 63 false } else o1
    oppStart (oppPut s d o2) d

/-- A step completes; the sequencer moves on toward the latest target (R496). -/
def oppComplete (s : State) (d : Nat) : State :=
  let o := oppOf s d
  oppRetarget (oppPut s d { o with step := 0, reg := setBit (incFld o.reg 47 32) 63 false }) d

/-- PWR_OPP's fields that a write sets (R513). -/
def oppTable : List Field :=
  [⟨62, 62, .w1c⟩, ⟨10, 8, .rw⟩, ⟨6, 4, .rw⟩, ⟨2, 0, .rw⟩]

/-- A write of PWR_OPPd (R492, R513). -/
def oppWrite (s : State) (d : Nat) (v : Word) : State :=
  let o := oppOf s d
  oppRetarget (oppPut s d { o with reg := writeTab oppTable o.reg v }) d

/-- A write of MINOP, MAXOP or INITOP. -/
def execPwrOppWrite (d : DieId) (v : Word) (s : State) : Out := .next (oppWrite s d v)

/-- The scaled clocks reach the frequency of the step's goal (R493, R494). -/
def execFreqSlewDone (d : DieId) (s : State) : Out :=
  let o := oppOf s d
  let o1 := { o with reg := setFld o.reg 18 16 o.goal }
  match o.step with
  | 3 => .next (scaledFollow (oppComplete (oppPut s d o1) d) d)
  | 4 =>
    if bitOf s.pwr.avs 63 = true ∧ o.goal < oppVCUR o then .next (scaledFollow (oppPut s d { o1 with step := 5 }) d)
    else .next (scaledFollow (oppComplete (oppPut s d o1) d) d)
  | _ => .next s

/-- The regulator acknowledges (R493 to R495). -/
def execAvsAck (d : DieId) (s : State) : Out :=
  let o := oppOf s d
  match o.step with
  | 1 => .next (oppPut s d { o with step := 2 })
  | 5 => .next (oppPut s d { o with step := 6 })
  | _ => .next s

/-- No acknowledgement within AVS_TMO, or a fault in the status (R495). -/
def execAvsTimeout (d : DieId) (s : State) : Out :=
  let o := oppOf s d
  if o.step = 1 ∨ o.step = 5 then
    let s1 := oppPut s d { o with reg := setBit o.reg 62 true }
    .next (oppRetarget (faultLog (notify s1 (0x3100 + d) 0) 0x10 d d) d)
  else .next s

/-- An unacknowledged command is sent again (R495): the same command waits for its acknowledgement. -/
def execAvsRetry (d : DieId) (s : State) : Out :=
  let o := oppOf s d
  if (o.step = 1 ∨ o.step = 5) ∧ bitOf o.reg 62 = true then .next (oppRetarget s d) else .next s

/-- The voltage has settled (R493), or the step down is complete (R494). -/
def execVoltageSettled (d : DieId) (s : State) : Out :=
  let o := oppOf s d
  let o1 := { o with reg := setFld o.reg 22 20 o.goal }
  match o.step with
  | 2 => .next (oppPut s d { o1 with step := 3 })
  | 6 => .next (oppComplete (oppPut s d o1) d)
  | _ => .next s

/-! ### The governor (R73 to R78) -/

def dieGov (s : State) (d : Nat) : DieGov := tget {} s.gov.dies d
def dieGovPut (s : State) (d : Nat) (g : DieGov) : State := { s with gov := { s.gov with dies := tset {} s.gov.dies d g } }

/-- THR_MAX and the ceiling as they act (R77). -/
def thrMax (s : State) : Nat := min 4 (fld s.gov.ctl 19 16)
def ceilW (s : State) : Nat := min 0x1E0 (max 0x64 (fld s.gov.ctl 47 32))

/-- The positions removed from each group of 8 divided edges while n edges in 8 are swallowed, as a mask (R98). -/
def throttleMask (n : Nat) : Nat := [0, 0x80, 0x88, 0xA4, 0xAA].getD n 0xAA

/-- A die's estimate in units of 10 nW (R71, R73): what its activity counters give over the microsecond and 14 W of
leakage, scaled by the square of VCORE relative to 0.85 V. -/
def dieEstimate (s : State) (d : Nat) : Nat :=
  (1400000000 + (dieGov s d).act) * oppMv (oppVCUR (oppOf s d)) ^ 2 / 850 ^ 2

/-- The limiter's microsecond (R73): over the limit twice running, one more edge is removed; below the limit less the
hysteresis share, one is given back; the activity counters start again. An entry into throttle notifies where NOTIFY is
set (R77). -/
def execGovernorLimiterTick (d : DieId) (s : State) : Out :=
  let g := dieGov s d
  let est := dieEstimate s d
  let n := if g.limit * 10 ^ 8 < est then g.overUs + 1 else 0
  let thr := if 2 ≤ n then min (thrMax s) (g.thr + 1)
             else if est + g.hyst * 10 ^ 8 < g.limit * 10 ^ 8 then g.thr - 1 else min (thrMax s) g.thr
  let g1 := { g with est := est, act := 0, overUs := min 2 n, thr := thr, thrUs := g.thrUs + (if thr = 0 then 0 else 1)
                     removed := throttleMask thr, throttled := g.throttled || thr != 0 }
  let s1 := dieGovPut s d g1
  if g.thr = 0 ∧ thr ≠ 0 ∧ bitOf s.gov.ctl 0 = true then .next (notify s1 0x3400 0) else .next s1

/-- The governor's request to the sequencer of a die (R73, R492): none while the management controller reloads. -/
def govRequest (s : State) (d : Nat) (k : Nat) : State :=
  if s.rst.hubLoading then s
  else let o := oppOf s d; oppRetarget (oppPut s d { o with gov := some k }) d

/-- A die's headroom covers point k (R73): its estimate, scaled to that point's voltage squared and clock factor, is
within its limit (log entry 47). -/
def headroomFor (s : State) (d k limit : Nat) : Bool :=
  let c := oppCUR (oppOf s d)
  decide ((dieGov s d).est * (oppMv k ^ 2 * oppPhi k) ≤ limit * 10 ^ 8 * (oppMv c ^ 2 * oppPhi c))

/-- The 100 µs interval (R73, R78), from the power measured in the device and outside the fabric: the ceiling less the
latter, shared in proportion to the estimates, HYST_W with it (log entry 47); a die throttled more than half of the
interval asks for its next lower point, one not throttled and with headroom for the next higher, each counted from its
target. How HYST_W is shared and which point the next one counts from R73 leaves open (log entry 47, DESIGN CHOICE). -/
def execGovernorInterval (device outside : Nat) (s : State) : Out :=
  if s.rst.hubLoading then .next s
  else
    let total := (List.range 4).foldl (fun a d => a + (dieGov s d).est) 0
    let avail := ceilW s - outside
    let hystW := fld s.gov.ctl 31 24
    let throt := (List.range 4).foldl (fun a d => if (dieGov s d).throttled then nset a d else a) 0
    let one := fun (t : State) (d : Nat) =>
      let g := dieGov s d
      let share := if total = 0 then (Config.freeWord (s.fresh + d)).toNat % (avail + 1) else avail * g.est / total
      let h := if total = 0 then hystW / 4 else hystW * g.est / total
      let t1 := dieGovPut t d { g with limit := share, hyst := h, thrUs := 0, throttled := false }
      let cur := oppTGT (oppOf t1 d)
      if 50 < g.thrUs then govRequest t1 d (cur - 1)
      else if g.throttled = false ∧ cur < 7 ∧ headroomFor s d (cur + 1) share = true then govRequest t1 d (cur + 1)
      else t1
    let s1 := (List.range 4).foldl one { s with gov := { s.gov with
      stat := setFld (setFld s.gov.stat 63 48 (min 0xFFFF device)) 47 44 throt } }
    .next (bump s1 4)

/-- The measured power has exceeded the ceiling for 1 ms (R76, R78). -/
def execGovernorOver (dies : BitVec 4) (s : State) : Out :=
  let w := incFld (s.gov.stat ||| BitVec.ofNat 64 (dies.toNat * 2 ^ 40)) 31 0
  let s1 := { s with gov := { s.gov with stat := w } }
  if bitOf s.gov.ctl 0 then .next (notify s1 0x3400 0) else .next s1

def govTable : List Field := [⟨47, 32, .rw⟩, ⟨31, 24, .rw⟩, ⟨19, 16, .rw⟩, ⟨0, 0, .rw⟩]

/-- A write of object 0x3400.00 (R77): a lower THR_MAX binds the limiters at once. -/
def govWrite (s : State) (v : Word) : State :=
  let s1 := { s with gov := { s.gov with ctl := writeTab govTable s.gov.ctl v } }
  { s1 with gov := { s1.gov with
    dies := tmap {} (fun _ (g : DieGov) => { g with thr := min (thrMax s1) g.thr, removed := throttleMask (min (thrMax s1) g.thr) }) s1.gov.dies } }

/-- A write of object 0x3401.00 (R78): OVER's bits written as 1 clear (log entry 34). -/
def govStatWrite (s : State) (v : Word) : State :=
  { s with gov := { s.gov with stat := writeTab [⟨43, 40, .w1c⟩] s.gov.stat v } }

def execGovernorControlWrite (v : Word) (s : State) : Out := .next (govWrite s v)

/-! ### Power domains (R497 to R503) -/

/-- The domain numbers that exist (R497). -/
def domValid (n : Nat) : Bool :=
  decide (n < 0x1E0) || decide (0x200 ≤ n ∧ n < 0x380) || decide (0x400 ≤ n ∧ n < 0x448) ||
  decide (0x460 ≤ n ∧ n < 0x484)

/-- The wrappers of a domain's units. -/
def domUnits (n : Nat) : List Nat :=
  if n < 0x200 then (List.range 8).map (fun i => 8 * n + i)
  else if n < 0x400 then [4096 + (n - 0x200)]
  else if n < 0x420 then [5100 + (n - 0x400)]
  else if n < 0x440 then (List.range 4).map (fun i => 5200 + 4 * (n - 0x420) + i)
  else if n < 0x460 then [5000 + (n - 0x440)]
  else if n < 0x480 then (List.range 64).map (fun q => 6000 + 64 * (n - 0x460) + q)
  else []

/-- Whether the domain holds a C0 endpoint: a slot with C0RX set (R246, R258, R516). A controller has slot 10 of each of its six
attachment routers (R230, R279). -/
def domC0 (s : State) (n : Nat) : Bool :=
  (decide (0x440 ≤ n ∧ n < 0x448) && (List.range 6).any (fun i =>
    bitOf (routerOf s (routerAt (1 + 6 * ((n - 0x440) % 4) + i) (if n - 0x440 < 4 then 0 else 15))).c0F 58)) ||
  (domUnits n).any (fun u => bitOf (routerOf s (unitPlace u / 16)).c0F (48 + unitPlace u % 16))

/-- Set software votes, waking the domain (R501, R514). -/
def voteSet (s : State) (v : Word) : State :=
  let n := fld v 42 32
  let m := fld v 15 1 * 2
  if domValid n = false then s
  else
    let d := domOf s n
    let s1 := domPut s n { d with votes := d.votes ||| m, cur := if d.cur = 1 ∧ m ≠ 0 then 0 else d.cur }
    if m = 0 then s1 else wakeDomain s1 n 1

def voteClr (s : State) (v : Word) : State :=
  let n := fld v 42 32
  let m := fld v 15 1 * 2
  if domValid n = false then s
  else let d := domOf s n; domPut s n { d with votes := d.votes - (d.votes &&& m) }

/-- A fabric port's vote for a domain of another die is ignored (R504). -/
def voteAllowed (init : BitVec 16) (v : Word) : Bool :=
  if 0x2000 ≤ init.toNat ∧ init.toNat < 0x2800 then (init.toNat - 0x2000) / 512 == domDie (fld v 42 32) else true

def execVoteSet (init : BitVec 16) (v : Word) (s : State) : Out :=
  if voteAllowed init v then .next (voteSet s v) else .next s

def execVoteClr (init : BitVec 16) (v : Word) (s : State) : Out :=
  if voteAllowed init v then .next (voteClr s v) else .next s

/-- The state a domain drops to (R497, R498): 1 CG, 2 RET, 3 OFF, 4 SLEEP. -/
def dropTo (s : State) (n c0 : Nat) : Nat :=
  let d := domOf s n
  let depth := min 3 (d.depth + 1)
  let t := if n < 0x200 then
      (if (List.range 8).any (fun i => bitOf (eng s (8 * n + i)).ctl 2) then 2 else 3)
    else if n < 0x400 then depth
    else if n < 0x440 then 3
    else if n < 0x460 then (if depth = 1 then 1 else 3)
    else if n < 0x480 then depth
    else 4
  if c0 = 1 then min 1 t else t

/-- Whether every other domain of die d is in RET or OFF (R499): those listed are, and those not listed are ON. -/
def dieQuiet (s : State) (d : Nat) : Bool :=
  let inner := (List.range 2048).filter (fun n => domValid n && decide (n < 0x480) && domDie n == d)
  inner.all (fun n => (domOf s n).cur == 2 || (domOf s n).cur == 3)

/-- A domain with no votes has been idle for LINGER (R499): it drops. CG is entered at once; a deeper state begins its
entry with R37, a panel also stopping its clocks and freezing its seams. -/
def execDomainLingerExpire (n : Fin 2048) (s : State) : Out :=
  let d := domOf s n
  if domValid n = false ∨ d.votes ≠ 0 ∨ hwVote s n = true ∨ (d.cur ≠ 0 ∧ d.cur ≠ 1) then .next s
  else if 0x480 ≤ n.val ∧ dieQuiet s (n.val - 0x480) = false then .next s
  else
    let t := dropTo s n (domC0 s n).toNat
    if t = 1 then .next (domPut s n { d with cur := 1, cg := true })
    else
      let s1 := domPut s n { d with cur := 5, into := t, latched := none }
      let s2 := (domUnits n).foldl wrapDisable s1
      if 0x460 ≤ n.val ∧ n.val < 0x480 then
        let x := panelOf s2 (n.val - 0x460)
        .next (panelPut s2 (n.val - 0x460) { x with seam := true })
      else .next (if 0x200 ≤ n.val ∧ n.val < 0x400 then groupFinish s2 (n - 0x200) else s2)

/-- What a domain loses on entering a state (R498): engine groups and bank groups their contents at OFF, a controller's
devices go into self-refresh, lane halves OFF, a panel its user state at OFF, a die's PLLs. -/
def domEnter (s : State) (n t : Nat) : State :=
  if n < 0x200 then
    if t = 3 then
      { s with engines := tmap {} (fun e (x : Engine) => if e / 8 = n then
          { ({} : Engine) with ctl := x.ctl, wdt := x.wdt, lastrst := x.lastrst, hcause := x.hcause
                               ibp := x.ibp, dbp := x.dbp, xt := x.xt, tx := x.tx, rx := x.rx
                               txf := x.txf, rxf := x.rxf, cyc := x.cyc } else x) s.engines }
    else s
  else if n < 0x400 then
    { s with banks := tmap {} (fun k (b : Bank) => if k / 8 = n - 0x200 then
      (if t = 3 then bankClear b else { b with resv := [], scrubPos := 0 }) else b) s.banks }
  else if n < 0x440 then
    let hi := if n < 0x420 then 59 else 57
    let q := (n - 0x400) % 32
    (List.range 4).foldl (fun u i => lnPutField u (4 * q + i) hi (hi - 1) 0) s
  else if n < 0x460 then ctrlStop s (n - 0x440) false
  else if n < 0x480 then
    if t = 3 then
      let p := n - 0x460
      { s with cells := tfilter (fun c => cellPanel c != p) s.cells, ports := tfilter (fun k => k / 64 != p) s.ports
               rclks := tmap {} (fun r (x : Rclk) => if r / 16 = p then { x with rst := true, gated := false } else x) s.rclks }
    else s
  else
    { s with clk := { s.clk with plls := tmap {} (fun i (x : Pll) => if i / 10 = n - 0x480 then
        { x with stat := setFld (setBit (setBit x.stat 62 false) 61 false) 11 0 0 } else x) s.clk.plls } }

/-- Entry completes (R499, R501, R502): the drain is over, the state is entered, and a wake latched meanwhile runs. -/
def execDomainEntryDone (n : Fin 2048) (s : State) : Out :=
  let d := domOf s n
  if d.cur ≠ 5 then .next s
  else
    let s1 := (domUnits n).foldl (fun t u => wrapStop (wrapAnswer t u 3) u) s
    let s2 := domEnter s1 n d.into
    let s3 := domPut s2 n { d with cur := d.into, latched := none }
    match d.latched with
    | none => .next s3
    | some src =>
      let s4 := wakeDomain s3 n src
      let d4 := domOf s4 n
      .next { domPut s4 n { d4 with replay := true } with
        pwr := { (domPut s4 n { d4 with replay := true }).pwr with wake := setBit s4.pwr.wake 62 true } }

/-- 64 router cycles have passed without a request: a domain ungated from CG gates again (R500). -/
def execCgRegate (n : Fin 2048) (s : State) : Out :=
  let d := domOf s n
  if d.cg = true ∧ d.cur = 0 ∧ d.votes = 0 ∧ hwVote s n = false then .next (domPut s n { d with cur := 1 })
  else .next s

end Sys2Proof.Machine
end

