-- ==== Sys2Proof/Machine/Clock.lean ====
section
/-! DEFINITION. Clock sources, PLLs, the clock supervisor and CLKOUT (R473 to R489, R505 to R511). -/

namespace Sys2Proof.Machine
open Sys2Proof

/-- A PLL locks to a reference: REF0 if valid, else REF1 with FBEN (R480, R483). -/
def pllToLock (s : State) (i : Nat) : State :=
  let p := pllOf s i
  let d := i / 10
  let on1 := !refOk s d (pllRef0 p)
  let w := setFld (setBit (setBit (setBit p.stat 62 true) 61 false) 60 on1) 11 0 (fvcoMhz s i p on1)
  pllPut s i { p with stat := w }

/-- Whether a PLL has a reference it may use. -/
def pllUsable (s : State) (i : Nat) : Bool :=
  let p := pllOf s i
  refOk s (i / 10) (pllRef0 p) || (bitOf p.cfg 60 && refOk s (i / 10) (pllRef1 p))

/-- A reference in use is lost: fallback or coasting (R482). -/
def pllLoss (i : Nat) (s : State) : State :=
  let p := pllOf s i
  let d := i / 10
  let other := if pllOn1 p then pllRef0 p else pllRef1 p
  let w := setBit p.stat 59 true
  if bitOf p.cfg 60 = true ∧ refOk s d other = true then
    pllPut s i { p with stat := setBit w 60 (!pllOn1 p) }
  else
    pllPut s i { p with stat := setFld (satFld (setBit (setBit w 62 false) 61 true) 47 32 1) 11 0 2000 }

/-- The PLLs of the dies a reference code concerns. -/
def pllsOf (code d : Nat) : List Nat :=
  if code < 4 then List.range 40 else (List.range 10).map (fun k => 10 * d + k)

/-- The frequency limit of global clocks and of ECLK in kHz (R3, R65, R89). -/
def clockLimit (j : Nat) : Nat :=
  if j = 8 then Config.eclkLimitKhz else Config.gclkLimitKhz

/-- An enabled PLL meets R479 and R484, with the settings it has. -/
def pllLegal (s : State) (i : Nat) : Bool :=
  let p := pllOf s i
  let ref := fun (code : Nat) => if i % 10 = 9 then measuredKhz s (i / 10) code else refKhz s (i / 10) code
  let f := ref (pllRef0 p)
  let r := fld p.cfg 49 42 + 1
  let v := f * fld p.cfg 33 22
  !pllEn p ||
  (decide (10000 * r ≤ f) && decide (f ≤ 100000 * r) && decide (2000000 * r ≤ v) && decide (v ≤ 4000000 * r) &&
    (!bitOf p.cfg 60 || f * (fld p.cfg 41 34 + 1) == ref (pllRef1 p) * r) &&
    (!bitOf p.cfg 62 || (decide (i % 10 < 8) && decide (3334000 * r ≤ v))) &&
    (i % 10 == 9 || (List.range (if i % 10 = 8 then 1 else 4)).all (fun o =>
      let od := fld p.odivSet (16 * o + 6) (16 * o)
      od == 0 || decide (v ≤ clockLimit (i % 10) * od * r))))

/-- LOW of a die (R491): the lowest point whose φ times the limit is at least every enabled output of an unscaled PLL. -/
def pointUsable (s : State) (d k : Nat) : Bool :=
  (List.range 9).all (fun j =>
    let i := 10 * d + j
    let p := pllOf s i
    let lim := clockLimit j
    !pllEn p || bitOf p.cfg 62 || (List.range (if j = 8 then 1 else 4)).all (fun o =>
      let od := fld p.odiv (16 * o + 6) (16 * o)
      od == 0 || decide (vcoKhz s i p (pllOn1 p) * 1000 ≤ oppPhi k * lim * od)))

def lowPoint (s : State) (d : Nat) : Nat := ((List.range 8).find? (pointUsable s d)).getD 7

/-- LOW is found again after a change of a die's PLLs, and its target with it. -/
def lowUpdate (s : State) (d : Nat) : State :=
  let o := oppOf s d
  oppRetarget (oppPut s d { o with reg := setFld o.reg 26 24 (lowPoint s d) }) d

/-- The dividers of a PLL of F0 that keep its global clocks at or below 200 MHz at the die's lowest point: each the value
set, raised where it must be, an output that is off staying off (R404, R485). -/
def odivRaised (s : State) (i : Nat) (p : Pll) : Word :=
  let v := vcoKhz s i p (pllOn1 p)
  let f := if bitOf p.cfg 62 then v * oppPhi (oppLOW (oppOf s 0)) / 1000 else v
  (List.range 4).foldl (fun w o =>
    let x := fld p.odivSet (16 * o + 6) (16 * o)
    if x = 0 then w else setFld w (16 * o + 6) (16 * o) (min 127 (max x ((f + 199999) / 200000)))) p.odivSet

/-- During reduced service the dividers of PLL0 to PLL7 of F0 are raised (R404, R485). -/
def dividersHold (s : State) : State :=
  if s.ld.reduced then
    (List.range 8).foldl (fun t i => pllPut t i { pllOf t i with odiv := odivRaised t i (pllOf t i) }) s
  else s

/-- Reduced service begins (R404). -/
def dividersCap (s : State) : State := dividersHold { s with ld := { s.ld with reduced := true } }

/-- The main load's PLL step: the dividers take the values set (R404, R485). -/
def dividersFree (s : State) : State :=
  if s.ld.reduced then
    lowUpdate ((List.range 8).foldl (fun t i => pllPut t i { pllOf t i with odiv := (pllOf t i).odivSet })
      { s with ld := { s.ld with reduced := false } }) 0
  else s

/-- The trim against the 32.768 kHz crystal, where the fuses record one (R473). -/
def execOscTrim (s : State) : Out :=
  if bitOf (fuseWord s 0) 4 then
    .next { s with clk := { s.clk with trimmed := true, ref := setBit s.clk.ref 51 true } }
  else .next s

/-- A reference becomes invalid (R476, R482). -/
def execRefLoss (code : Fin 32) (d : DieId) (s : State) : Out :=
  let k := refKey d code
  if s.clk.refs.contains k = false then .next s
  else
    let c := s.clk
    let w := if code.val < 4 then setBit (setBit c.ref (60 + code) false) (52 + code) true else c.ref
    let s1 := { s with clk := { c with refs := c.refs.filter (· != k), ref := w } }
    let hit := (pllsOf code d).filter (fun i =>
      let p := pllOf s1 i
      pllEn p && pllLocked p && (if pllOn1 p then pllRef1 p else pllRef0 p) == code.val)
    .next (faultLog (hit.foldl (fun t i => pllLoss i t) s1) 0x0F code code)

/-- The listed frequency within whose ±12 % window a measurement in kHz lies (R474). -/
def f0Code (khz : Nat) : Nat :=
  ((List.range 5).find? (fun i =>
    let f := [25000, 50000, 100000, 125000, 156250].getD i 0
    decide (88 * f ≤ 100 * khz) && decide (100 * khz ≤ 112 * f))).getD 7

/-- A reference becomes valid (R475, R476): PLLs on REF1 return to REF0, coasting ones with AUTOREL relock (R482,
R483). -/
def execRefValid (code : Fin 32) (d : DieId) (khz : Nat) (s : State) : Out :=
  let k := refKey d code
  let c := s.clk
  let w := if code.val < 4 then setBit c.ref (60 + code) true else c.ref
  let w2 := if code.val = 0 then setFld w 50 48 (f0Code khz) else w
  let s1 := { s with clk := { c with
    refs := c.refs.filter (· != k) ++ [k], nominal := tset 0 c.nominal k khz, ref := w2 } }
  if recoveredOk s d code = false then .next s
  else .next ((pllsOf code d).foldl (fun t i =>
    let p := pllOf t i
    if pllEn p = false then t
    else if pllLocked p = true ∧ pllOn1 p = true ∧ pllRef0 p = code.val then
      pllPut t i { p with stat := setBit p.stat 60 false }
    else if pllCoasting p = true ∧ bitOf p.cfg 61 = true ∧ pllUsable t i = true then pllToLock t i
    else t) s1)

/-- The phase counts of a PLL's global clocks start again at 0 (R90, R480, R485). -/
def pllRestart (s : State) (i : Nat) : State := pllPut s i { pllOf s i with phase := [0, 0, 0, 0] }

/-- A PLL locks (R480, R485, R498, R501), its phase counts from 0: enabled, its die awake, not locked, not coasting, with a reference it may use. -/
def execPllLock (i : PllId) (s : State) : Out :=
  let p := pllOf s i
  if pllEn p = true ∧ pllLocked p = false ∧ pllCoasting p = false ∧ pllUsable s i = true ∧
      (domOf s (0x480 + i / 10)).cur ≠ 4 then
    .next (dividersHold (pllRestart (pllToLock s i) i))
  else .next s

def odivTable : List Field := [⟨54, 48, .rw⟩, ⟨38, 32, .rw⟩, ⟨22, 16, .rw⟩, ⟨6, 0, .rw⟩]

/-- A write of CLK_PLLODIV (R481, R485, R507). -/
def pllOdivSet (s : State) (i : Nat) (v : Word) : State :=
  let p := pllOf s i
  let w := writeTab odivTable p.odivSet v
  lowUpdate (dividersHold (pllPut s i { p with odiv := w, odivSet := w })) (i / 10)

def execPllOdivWrite (i : PllId) (v : Word) (s : State) : Out := .next (pllOdivSet s i v)

/-- A write of CLK_PLLCFG (R480, R485, R506): an enable waits for lock, a disable stops the outputs, a changed setting
relocks, FBEN and AUTOREL act at once; the release from reset restarts the phase counts (R90). -/
def pllCfgSet (s : State) (i : Nat) (v : Word) : State :=
  let p := pllOf s i
  let n := v &&& fldMask 63 22
  let sets := fldMask 62 62 ||| fldMask 59 22
  let w :=
    if bitOf n 63 = false then setFld (p.stat &&& ~~~ (fldMask 62 60)) 11 0 0
    else if pllEn p = false ∨ n &&& sets ≠ p.cfg &&& sets then setFld (p.stat &&& ~~~ (fldMask 62 60)) 11 0 0
    else p.stat
  let s1 := pllPut s i { p with cfg := n, stat := w }
  lowUpdate (dividersHold (if pllEn p = false ∧ bitOf n 63 = true then pllRestart s1 i else s1)) (i / 10)

def execPllCfgWrite (i : PllId) (v : Word) (s : State) : Out := .next (pllCfgSet s i v)

/-- A regional multiplexer can be flagged (R96, R486, R488): only FCLK, as the old input or the new one, can stall it; with
a switch under way, with taps that ask for another input under SELSRC 0b01, or forced onto a dead FCLK. -/
def muxStalls (s : State) (r : Nat) : Bool :=
  let x := rclkGet s r
  bitOf (rclkCfg s r) 41 && (isFclk s r x.src || x.pend.any (isFclk s r)) &&
    (x.pend.isSome || fld (rclkCfg s r) 47 46 == 1 || x.forced)

/-! ### CLKOUT (R489) -/

/-- The source codes of CLKOUT (R489). -/
def clkoutSrcOk (c : Nat) : Bool := decide (c ≤ 0x8C) || decide (0x90 ≤ c ∧ c ≤ 0xAF)

def clkoutTable : List Field := [⟨63, 63, .rw⟩, ⟨62, 62, .w1c⟩, ⟨55, 48, .rw⟩, ⟨39, 32, .rw⟩]

/-- A write of CLK_OUTk (R489, R509): a SRC that is no source leaves SRC unchanged. -/
def clkoutSet (w v : Word) : Word :=
  let n := writeTab clkoutTable w v
  if clkoutSrcOk (fld v 39 32) then n else setFld n 39 32 (fld w 39 32)

def clkoutPut (s : State) (k : Nat) (w : Word) : State :=
  if k = 0 then { s with clk := { s.clk with out0 := w } } else { s with clk := { s.clk with out1 := w } }
def clkoutGet (s : State) (k : Nat) : Word := if k = 0 then s.clk.out0 else s.clk.out1

/-- A source of CLKOUT runs. -/
def clkoutRuns (s : State) (c : Nat) : Bool :=
  if c < 0x80 then gclkRuns s (c / 32) (c % 32)
  else if c < 0x84 then pllDrives s (10 * (c - 0x80) + 8) 0
  else if c < 0x88 then pllDrives s (10 * (c - 0x84) + 9) 0
  else if c < 0x8C then s.clk.refs.contains (c - 0x88)
  else if c = 0x8C then true
  else rclkOk s (c - 0x90)

/-- The source an output follows. -/
def clkoutSel (s : State) (k : Nat) : Nat := tget 0x8C s.clk.outSel k
def clkoutFollow (s : State) (k : Nat) : State :=
  { s with clk := { s.clk with outSel := tset 0x8C s.clk.outSel k (fld (clkoutGet s k) 39 32) } }
/-- A switch between two sources that run completes (R94, R95, R489). -/
def clkoutSettle (s : State) (k : Nat) : State :=
  if clkoutRuns s (clkoutSel s k) && clkoutRuns s (fld (clkoutGet s k) 39 32) then clkoutFollow s k else s
/-- A write of CLK_OUTk, with FORCE or without (R489). -/
def clkoutWrite (s : State) (k : Nat) (v : Word) : State :=
  let s1 := clkoutPut s k (clkoutSet (clkoutGet s k) v)
  if bitOf v 61 then clkoutFollow s1 k else clkoutSettle s1 k
/-- A switch still under way after 64 always-on cycles is flagged (R486). -/
def clkoutStall (s : State) (k : Nat) : State :=
  let s1 := clkoutSettle s k
  if clkoutSel s1 k = fld (clkoutGet s k) 39 32 then s1 else clkoutPut s1 k (setBit (clkoutGet s k) 62 true)

/-- A multiplexer's switch is still under way after 64 always-on cycles (R486): 0 to 511 the regional ones, 512 and 513
CLKOUT0 and CLKOUT1. -/
def execClockStallReg (r : Fin 514) (s : State) : Out :=
  if r.val < 512 then
    if muxStalls s r then
      let p := r.val / 16
      let k := p / 4
      let old := tget 0 s.clk.stalls k
      let new := setBit old (16 * (p % 4) + r.val % 16) true
      .next (notify { s with clk := { s.clk with stalls := tset 0 s.clk.stalls k new } } (0x3000 + k) 0)
    else .next s
  else .next (clkoutStall s (r.val - 512))

def forceTable : List Field := [⟨62, 62, .w1c⟩, ⟨20, 16, .rw⟩, ⟨11, 8, .rw⟩, ⟨1, 0, .rw⟩]

/-- A write of CLK_FORCE (R487, R488, R510). -/
def forceWrite (s : State) (v : Word) : State :=
  let busy := bitOf s.clk.force 61
  let w := writeTab forceTable s.clk.force v
  if bitOf v 63 = false then { s with clk := { s.clk with force := w } }
  else
    let p := fld w 20 16
    let r := 16 * p + fld w 11 8
    if busy = true ∨ panelState s p ≠ 1 ∨ bitOf (rclkCfg s r) 41 = false then
      { s with clk := { s.clk with force := setBit s.clk.force 62 true } }
    else
      let s1 := { s with clk := { s.clk with force := setBit w 61 true } }
      let x := rclkGet s1 r
      treeAssert r (rclkPut s1 r { x with
        forced := true, src := fld w 1 0, pend := none, queued := none, swCnt := (x.swCnt + 1) % 65536
        fclkCnt := if fld w 1 0 = 3 ∧ bitOf (rclkCfg s r) 40 = true then 0 else x.fclkCnt })

def execClockForce (init : BitVec 16) (v : Word) (s : State) : Out :=
  if init.toNat < 16 ∨ (init.toNat = 0x10 ∧ fld s.dbg.ctl 63 62 = 2) then .next (forceWrite s v) else .next s

/-- 16 edges of INPUT have passed (R487); an INPUT that does not run gives none (R488). -/
def execForceRelease (s : State) : Out :=
  let r := 16 * fld s.clk.force 20 16 + fld s.clk.force 11 8
  if bitOf s.clk.force 61 = true ∧ rclkFed s r = true then
    .next (rclkPut { s with clk := { s.clk with force := setBit s.clk.force 61 false } } r
      { rclkGet s r with forced := false })
  else .next s

/-- CLKOUT_WRITE (R489, R509). -/
def execClkoutWrite (k : Fin 2) (v : Word) (s : State) : Out := .next (clkoutWrite s k v)

/-- FORCE (R489): the output is held low and follows SRC from SRC's next low phase. -/
def execClkoutForce (k : Fin 2) (s : State) : Out := .next (clkoutFollow s k)

end Sys2Proof.Machine
end

