-- ==== Sys2Proof/Machine/Engine.lean ====
section
/-! DEFINITION. The commands of a signal engine's issue cycle: one meaning per operation and per memory-slot kind, and
the engine's run states, interrupts, verdicts and watchdog (R105 to R183). -/

namespace Sys2Proof.Machine
open Sys2Proof

/-! ### Shared operations -/

/-- The reset a watchdog's final expiry causes (R178, R182); a shutdown under way ignores it (R543). -/
def wdtReset (s : State) (e : Nat) : State :=
  if 22 ≤ stage s then s
  else
    let panel := bitOf (eng s e).wdt 2
    let s1 := if panel then panelReset s (e / 120) (some e) else engineReset s e 1
    { s1 with rst := { s1.rst with
      narrow := s1.rst.narrow ++ [if panel then (2, 0, e / 120) else (1, 0, e)] } }

/-- An expiry of an engine's watchdog (R178). -/
def wdtExpire (s : State) (e : Nat) : State :=
  let x := eng s e
  if bitOf x.wdt 1 = true ∧ x.wdFirst = false then
    engPut s e { x with ipend := setBit x.ipend 5 true, wdFirst := true }
  else wdtReset s e

/-- An engine's next state takes its place, with what its step does elsewhere (R176, R591, R597). -/
def engApply (s : State) (e : Nat) (x : Engine) (evs : List EngEv) : State :=
  let s1 := engEvents (bump (engPut s e x) 16384) e evs
  if evs.contains .expiry then wdtExpire s1 e else s1

/-- An engine whose wrapper has stopped has stopped itself (R37). -/
def engOff (s : State) (e : Nat) : Bool := (wrapOf s e).st == WrapSt.stopped

/-- The instruction at PC issues if its operation is op (R129, R136). -/
def engRun (s : State) (e op : Nat) : State :=
  if engOff s e then s
  else
    let r := engIssue s.fresh (eng s e) op
    engApply s e r.1 r.2

/-- Uncorrectable words of a load are reported to the fault log (R202, R607), each with its word address. -/
def loadLog (s : State) (e a : Nat) (flips : List (BitVec 80)) : State :=
  flips.zipIdx.foldl (fun t p =>
    if eccKind s.fresh p.1 = .uncorrectable then faultLog t 0x04 e ((a + p.2) % 2048) else t) s

/-- A memory slot's load or store of the instruction at PC (R128). -/
def engMem (s : State) (e k : Nat) (load : Bool) (kind : Nat) (flips : List (BitVec 80)) : State :=
  if engOff s e then s
  else
    let x := eng s e
    let y := engSlot s.fresh x k load kind flips
    let s1 := engApply s e y []
    if load = true ∧ y.slots ≠ x.slots then
      let sl := iSlot (tget { val := 0, pois := false } y.pm y.pc).val.toNat k
      loadLog s1 e (quadBase (kind == 1) (agAddr (agGet y (slLag sl)))) (flips.take (if kind = 1 then 4 else 1))
    else s1

/-- Issue stops with a cause, where the engine issues (R143, R586). -/
def engHaltBy (s : State) (e cause : Nat) : State :=
  let x := eng s e
  if (x.st = .running ∨ x.st = .waiting) ∧ x.halting = false then
    let r := engStop x cause x.pc
    engApply s e r.1 r.2
  else engPut s e { x with ctl := setBit x.ctl 0 false }

/-- RUN written 1 (R143, R177, R586): a halted engine goes on where it stopped; the instruction at the breakpoint it
stopped at issues once without matching. One halted in WAITING issues its WAITE again, memory slots and all (R143 says only
that issue resumes where it stopped; log entry 53, DESIGN CHOICE). -/
def engGo (s : State) (e : Nat) : State :=
  let x := eng s e
  let y := { x with ctl := setBit x.ctl 0 true }
  if x.st = .halted then
    engPut s e { y with
      st := .running, skipIbp := x.hcause == 4, hcause := 0, stepping := false
      wdFirst := x.wdFirst && !bitOf x.wdt 3 }
  else engPut s e y

/-- Whether nothing holds an engine in RESET: HRST, a reset that covers it, or its panel's load (R39, R142, R396). -/
def engFree (s : State) (e : Nat) : Bool :=
  !bitOf (eng s e).ctl 1 && !wideActive s.rst && !s.rst.narrow.contains (1, 0, e) &&
  !s.rst.narrow.contains (2, 0, e / 120) && (panelOf s (e / 120)).we

/-- Whether the panel of an engine lets its wrapper open (R419): WE has run, or the panel is not isolated. The memories of
an engine held in RESET are reached all the same (R110). -/
def engPanelOpen (s : State) (e : Nat) : Bool := (panelOf s (e / 120)).we || (panelOf s (e / 120)).iso == 0

/-- A stopped wrapper of an engine waits to open again (R38). -/
def engWake (s : State) (e : Nat) : State :=
  if (wrapOf s e).st = .stopped ∧ (wrapOf s e).off = false ∧ engPanelOpen s e = true then
    wrapPut s e { wrapOf s e with st := .waking }
  else s

/-- An engine leaves RESET if nothing holds it there (R142). -/
def engTryLeave (s : State) (e : Nat) : State :=
  engWake (if engFree s e = true ∧ (eng s e).st = .reset then engPut s e (engLeave (eng s e)) else s) e

/-- HRST written (R181, R182): 1 holds the engine in UNIT reset, 0 lets it leave. -/
def engHold (s : State) (e : Nat) (hold : Bool) : State :=
  let x := eng s e
  let s1 := engPut s e { x with ctl := setBit x.ctl 1 hold }
  if hold = true ∧ bitOf x.ctl 1 = false then engWake (engineReset s1 e 3) e
  else if hold = false ∧ bitOf x.ctl 1 = true then engTryLeave s1 e
  else s1

/-- ENG_CTL written (R181). -/
def engCtlWrite (s : State) (e : Nat) (v : Word) : State :=
  let x := eng s e
  let m := fldMask 25 16 ||| fldMask 2 2
  let s1 := engPut s e { x with ctl := (x.ctl &&& ~~~ m) ||| (v &&& m) }
  let s2 := if bitOf v 0 then (if bitOf x.ctl 0 then s1 else engGo s1 e) else engHaltBy s1 e 2
  engHold s2 e (bitOf v 1)

/-- ENG_WDT written (R177): EN written 1 starts a full period. -/
def engWdtSet (s : State) (e : Nat) (v : Word) : State :=
  let x := eng s e
  engPut s e { x with wdt := v &&& (fldMask 39 8 ||| fldMask 3 0), wdFirst := x.wdFirst && !bitOf v 0 }

/-- ENG_INT written (R183). In RESET the registers keep their reset values (R142). -/
def engIntWrite (s : State) (e : Nat) (v : Word) : State :=
  let x := eng s e
  if bitOf v 0 = true ∧ x.st ≠ .reset then engPut s e { x with ipend := setBit x.ipend 4 true } else s

/-- The word of ENG_STAT (R182). -/
def engStatWord (x : Engine) : Word :=
  mkWord [(47, 44, x.lastrst), (35, 32, if x.st = .halted then x.hcause else 0), (25, 16, x.pc),
          (2, 0, match x.st with
            | .reset => 0
            | .halted => 1
            | .running => 2
            | .waiting => 3)]

/-- What is in flight lands and the engine is HALTED (R143, R153). RUN written 1 meanwhile resumes it. -/
def engHaltDone (s : State) (e : Nat) : State :=
  let x := eng s e
  if x.halting then
    let s1 := engApply s e (engHalted s.fresh x) []
    let s2 := if x.hcause = 1 ∨ x.hcause = 3 then setGrp s1 e else s1
    if bitOf x.ctl 0 then engGo s2 e else s2
  else s

/-- Whether an interrupt may be taken at this boundary (R144, R155, R160): the exception's return path counts as a
boundary. -/
def intEligible (x : Engine) : Bool :=
  (x.st == .running || x.st == .waiting) && !x.halting && !x.stepping && bitOf x.ictl 0 && x.slots == 0 &&
  (fld x.ictl 21 16 &&& fld x.ipend 5 0) != 0 &&
  ((x.repLeft == 0 && x.dsLeft == 0) || x.retPath) &&
  (!bitOf x.ictl 6 || x.point || (innermost x).isNone)

/-- Interrupt entry (R155, R156, R160), by the state at the boundary, where what is due has landed. -/
def engInterrupt (s : State) (e : Nat) : State :=
  let x := eng s e
  let b := engTick s.fresh x
  let exc := if x.st = .waiting then x.vbad != 0 && !bitOf b.ictl 4 else (excDue b).isSome
  if engOff s e = false ∧ intEligible b = true ∧ exc = false then
    let carry := x.retPath && (decide (0 < x.repLeft) || decide (0 < x.dsLeft))
    let y := engEntry s.fresh { x with irp := BitVec.ofNat 64 x.pc } false 0x010
    engApply s e { y with carried := carry :: x.carried } [.trace 3 x.pc 0x010]
  else s

/-- The fetch of the instruction word at PC finds bits in error that the code cannot correct (R111, R159). -/
def fetchLost (s : State) (flip : BitVec 80) : Bool := eccKind (s.fresh + 16300) flip == .uncorrectable

/-- The engine as that fetch sees it: the word at PC delivered poisoned; memory itself keeps what it holds. -/
def engFetched (s : State) (e : Nat) (flip : BitVec 80) : Engine :=
  let x := eng s e
  let p : PWord := { val := 0, pois := false }
  if fetchLost s flip then { x with pm := tset p x.pm x.pc (eccRead (s.fresh + 16300) (tget p x.pm x.pc) flip) } else x

/-- Exception entry at this boundary (R156, R159 to R164). A lost instruction word is reported to the fault log, its word
address counted on from the data memory's (R607). -/
def engExcept (s : State) (e : Nat) (flip : BitVec 80) : State :=
  let x0 := eng s e
  match engReady s.fresh (engFetched s e flip) with
  | (x, .exc c d) =>
    if engOff s e then s
    else
      let r := engException s.fresh x c d
      let s1 := if c = 4 ∧ fetchLost s flip = true then faultLog s 0x04 e (2048 + x0.pc) else s
      engApply s1 e { r.1 with pm := x0.pm } r.2
  | _ => s

/-- A transfer whose words have all been answered and whose verdict has come completes (R152). -/
def xferDone (s : State) (e : Nat) : State :=
  let x := eng s e
  match takeFirst (fun (t : Xfer) => decide (t.len ≤ t.got) && t.early.isNone) x.xfers with
  | none => s
  | some (t, rest) => engPut s e { x with xfers := rest, ipend := setBit x.ipend (if t.err then 2 else 1) true }

/-- The address a generator's queue fetches next, and its load kind (R167): the prediction follows R116 beyond what the
queue holds. -/
def raNext (x : Engine) (g : Nat) : Nat × Nat :=
  let n := (tget [] x.raq g).length
  let p := (List.range n).foldl (fun (p : Word × Word) _ => agPost p.1 p.2) (agGet x g, agxGet x g)
  let lk := tget 0 x.lastKind g % 4
  (quadBase (lk == 1) (agAddr p.1), lk)

/-- A run-ahead read (R167, R168). -/
def raFetch (free : Nat) (x : Engine) (g : Nat) (flips : List (BitVec 80)) : Engine :=
  let p := raNext x g
  let q := tget [] x.raq g
  let n := if p.2 = 1 then 4 else 1
  let held := q.foldl (fun a (r : RaEntry) => a + r.ws.length) 0
  if p.2 = 0 ∨ tget 0 x.lastKind g < 4 ∨ x.st ≠ .running ∨ 8 < held + n then x
  else
    let ws := (List.range n).map (fun i =>
      eccLane (free + 2 * i) (tget {} x.dm ((p.1 + i) % 2048)) (flips.getD i 0))
    { x with raq := tset [] x.raq g (q ++ [{ addr := p.1, lk := p.2, ws := ws }]) }

/-- A verdict is due for v: the responses of its transfer have come (R35, R173, R174). -/
def verdictDue (x : Engine) (v verd : Nat) : Bool :=
  x.xfers.any (fun t => t.early == some v && (if verd = 2 then t.verd == 2 else decide (t.len ≤ t.got) && t.verd != 2))

/-! ### Compute and control commands -/

/-- ENG_NOP (R129). -/
def execEngNop (e : EngId) (s : State) : Out := .next (engRun s e 0x00)
/-- CMUL (R121, R129). -/
def execEngCmul (e : EngId) (s : State) : Out := .next (engRun s e 0x01)
/-- CADD (R121, R129). -/
def execEngCadd (e : EngId) (s : State) : Out := .next (engRun s e 0x02)
/-- CSUB (R121, R129). -/
def execEngCsub (e : EngId) (s : State) : Out := .next (engRun s e 0x03)
/-- MAC (R121, R129). -/
def execEngMac (e : EngId) (s : State) : Out := .next (engRun s e 0x04)
/-- FTAP (R134). -/
def execEngFtap (e : EngId) (s : State) : Out := .next (engRun s e 0x05)
/-- BFLY (R131). -/
def execEngBfly (e : EngId) (s : State) : Out := .next (engRun s e 0x06)
/-- FFT8 (R133). -/
def execEngFft8 (e : EngId) (s : State) : Out := .next (engRun s e 0x07)
/-- ACLR (R129). -/
def execEngAclr (e : EngId) (s : State) : Out := .next (engRun s e 0x08)
/-- ARD (R121, R129). -/
def execEngArd (e : EngId) (s : State) : Out := .next (engRun s e 0x09)
/-- ARDC (R129). -/
def execEngArdc (e : EngId) (s : State) : Out := .next (engRun s e 0x0A)
/-- CVTF (R122, R129). -/
def execEngCvtf (e : EngId) (s : State) : Out := .next (engRun s e 0x0B)
/-- CVTI (R122, R129). -/
def execEngCvti (e : EngId) (s : State) : Out := .next (engRun s e 0x0C)
/-- AXFR (R129). -/
def execEngAxfr (e : EngId) (s : State) : Out := .next (engRun s e 0x0D)
/-- VMOV (R129). -/
def execEngVmov (e : EngId) (s : State) : Out := .next (engRun s e 0x10)
/-- VAND (R129). -/
def execEngVand (e : EngId) (s : State) : Out := .next (engRun s e 0x11)
/-- VOR (R129). -/
def execEngVor (e : EngId) (s : State) : Out := .next (engRun s e 0x12)
/-- VXOR (R129). -/
def execEngVxor (e : EngId) (s : State) : Out := .next (engRun s e 0x13)
/-- VROT (R129). -/
def execEngVrot (e : EngId) (s : State) : Out := .next (engRun s e 0x14)
/-- SMOV (R113, R129, R176). -/
def execEngSmov (e : EngId) (s : State) : Out := .next (engRun s e 0x20)
/-- SADD (R129). -/
def execEngSadd (e : EngId) (s : State) : Out := .next (engRun s e 0x21)
/-- SADDI (R129). -/
def execEngSaddi (e : EngId) (s : State) : Out := .next (engRun s e 0x22)
/-- SLDI (R129). -/
def execEngSldi (e : EngId) (s : State) : Out := .next (engRun s e 0x23)
/-- AGADD (R129). -/
def execEngAgadd (e : EngId) (s : State) : Out := .next (engRun s e 0x24)
/-- VEXT (R129). -/
def execEngVext (e : EngId) (s : State) : Out := .next (engRun s e 0x25)
/-- VINS (R129). -/
def execEngVins (e : EngId) (s : State) : Out := .next (engRun s e 0x26)
/-- BR (R144, R145). -/
def execEngBr (e : EngId) (s : State) : Out := .next (engRun s e 0x30)
/-- BRZ (R144, R145). -/
def execEngBrz (e : EngId) (s : State) : Out := .next (engRun s e 0x31)
/-- BRNZ (R144, R145). -/
def execEngBrnz (e : EngId) (s : State) : Out := .next (engRun s e 0x32)
/-- REP (R135, R136). -/
def execEngRep (e : EngId) (s : State) : Out := .next (engRun s e 0x33)
/-- LOOP (R146). -/
def execEngLoop (e : EngId) (s : State) : Out := .next (engRun s e 0x34)
/-- WAITE (R144): the wait begins, or ends where its event has come. -/
def execEngWaite (e : EngId) (s : State) : Out :=
  let x := eng s e
  if x.st = .waiting then
    let w := (tget { val := 0, pois := false } x.pm x.pc).val.toNat
    if x.vbad ≠ 0 ∧ bitOf x.ictl 4 = false then .next (engExcept s e 0)
    else if engOff s e = false ∧ x.halting = false ∧ waitMet x (iMod w) = true then
      let r := advance { x with st := .running } x.pc
      let q := if x.stepping then engStop r.1 6 x.pc else (r.1, [])
      .next (engApply s e q.1 (r.2 ++ q.2))
    else .next s
  else .next (engRun s e 0x35)
/-- RETI (R157). -/
def execEngReti (e : EngId) (s : State) : Out := .next (engRun s e 0x36)
/-- HALT (R143, R144). -/
def execEngHalt (e : EngId) (s : State) : Out := .next (engRun s e 0x37)
/-- XFER (R151, R152, R170). -/
def execEngXfer (e : EngId) (s : State) : Out := .next (engRun s e 0x38)

/-! ### Memory-slot commands -/

/-- LOAD_QUAD (R128, R140). -/
def execLoadQuad (e : EngId) (k : Fin 2) (flips : List (BitVec 80)) (s : State) : Out := .next (engMem s e k true 1 flips)
/-- LOAD_WORD (R128, R140). -/
def execLoadWord (e : EngId) (k : Fin 2) (flips : List (BitVec 80)) (s : State) : Out := .next (engMem s e k true 2 flips)
/-- LOAD_F (R128, R140). -/
def execLoadF (e : EngId) (k : Fin 2) (flips : List (BitVec 80)) (s : State) : Out := .next (engMem s e k true 3 flips)
/-- STORE_QUAD (R128, R140). -/
def execStoreQuad (e : EngId) (k : Fin 2) (s : State) : Out := .next (engMem s e k false 1 [])
/-- STORE_WORD (R128, R140). -/
def execStoreWord (e : EngId) (k : Fin 2) (s : State) : Out := .next (engMem s e k false 2 [])
/-- STORE_QUAD_OBSERVED (R126, R128). -/
def execStoreQuadObserved (e : EngId) (k : Fin 2) (s : State) : Out := .next (engMem s e k false 3 [])

/-! ### Run states, interrupts, verdicts, the watchdog -/

/-- HALT_COMPLETE (R143). -/
def execHaltComplete (e : EngId) (s : State) : Out := .next (engHaltDone s e)
/-- INTERRUPT_ENTRY (R155, R156). -/
def execInterruptEntry (e : EngId) (s : State) : Out := .next (engInterrupt s e)
/-- EXCEPTION_ENTRY (R156, R159): the bits in error of the word that the fetch at PC reads are its operand. -/
def execExceptionEntry (e : EngId) (flip : BitVec 80) (s : State) : Out := .next (engExcept s e flip)
/-- XFER_COMPLETE (R152). -/
def execXferComplete (e : EngId) (s : State) : Out := .next (xferDone s e)
/-- RUN_AHEAD_FETCH (R167). -/
def execRunAheadFetch (e : EngId) (g : Fin 8) (flips : List (BitVec 80)) (s : State) : Out :=
  .next (bump (engPut s e (raFetch s.fresh (eng s e) g flips)) 16)
/-- VERDICT_GOOD (R173). -/
def execVerdictGood (e : EngId) (v : Fin 4) (s : State) : Out :=
  .next (if verdictDue (eng s e) v 1 then engPut s e (engGood v (eng s e)) else s)
/-- VERDICT_BAD (R174). -/
def execVerdictBad (e : EngId) (v : Fin 4) (s : State) : Out :=
  .next (if verdictDue (eng s e) v 2 then engPut s e (engBad v (eng s e)) else s)
/-- VERDICT_RETIRE (R173). -/
def execVerdictRetire (e : EngId) (s : State) : Out := .next (engPut s e (engRetire (eng s e)))
/-- WATCHDOG_EXPIRE (R141, R178). -/
def execWatchdogExpire (e : EngId) (s : State) : Out :=
  let x := eng s e
  .next (if bitOf x.wdt 0 = true ∧ x.st ≠ .reset ∧ (x.st ≠ .halted ∨ bitOf x.wdt 3 = false) then wdtExpire s e else s)
/-- ENG_WDT_WRITE (R177). -/
def execEngWdtWrite (e : EngId) (v : Word) (s : State) : Out := .next (engWdtSet s e v)
/-- ENG_HALT_REQUEST: RUN written 0 (R143, R181). -/
def execEngHaltRequest (e : EngId) (s : State) : Out := .next (engHaltBy s e 2)
/-- ENG_RESUME: RUN written 1 (R143, R181). -/
def execEngResume (e : EngId) (s : State) : Out := .next (engGo s e)
/-- ENG_HOLD_RESET: HRST written (R181). -/
def execEngHoldReset (e : EngId) (hold : Bool) (s : State) : Out := .next (engHold s e hold)
/-- ENG_INT_HOST (R183). -/
def execEngIntHost (e : EngId) (s : State) : Out := .next (engIntWrite s e 1)

end Sys2Proof.Machine
end

