-- ==== Sys2Proof/Machine/Bank.lean ====
section
/-! DEFINITION. The commands of block memory banks: fabric accesses, ownership, repair, scrubbing, the background test
and power, and a request from the network served by a bank (R184 to R227). -/

namespace Sys2Proof.Machine
open Sys2Proof

/-! ### Shared operations -/

def bankGroupKey (n : Nat) : Nat := 4096 + n / 8

/-- The state a bank is in: its own, or its group's where that is deeper (R216, R498): 0 ON, 1 RET, 2 OFF, 3 changing. -/
def bankState (s : State) (n : Nat) : Nat :=
  let d := domOf s (0x200 + n / 8)
  let own := bankCur (bank s n)
  if own = 3 ∨ 5 ≤ d.cur then 3
  else max own (if d.cur = 3 then 2 else if d.cur = 2 then 1 else 0)

/-- Whether the bank clock runs (R186). -/
def bankClocked (s : State) (n : Nat) : Bool :=
  let c := fld (bank s n).cfg 36 32
  16 ≤ c || rclkRuns s (bankPanel n * 16 + c)

/-- A held panel stop acts once no port of the panel holds a reservation (R593). -/
def deferCheck (s : State) : State :=
  { s with dbg := { s.dbg with xtp := tmap 0 (fun p (w : Word) =>
      if bitOf w 62 = true ∧ panelLocked s p = false then setBit (setBit w 62 false) 63 true else w) s.dbg.xtp } }

/-- A bank put back, with what follows from reservations that went. -/
def bankSet (s : State) (n : Nat) (b : Bank) : State := deferCheck (bankPut s n b)

/-- An uncorrectable word of a bank is reported (R202); one of a legacy memory shows in MEMUE (R454, R467). -/
def bankLog (s : State) (n a : Nat) : State :=
  let t := faultLog s 0x04 n a
  if modeCode s ≠ 0 ∧ n / 96 = 1 then { t with lg := { t.lg with stat := setBit t.lg.stat 20 true } } else t

/-- An access wakes a bank in RET with AUTOWAKE, or its group (R216, R217, R501). -/
def bankWake (s : State) (n src : Nat) : State :=
  let b := bank s n
  let s1 := if 2 ≤ (domOf s (0x200 + n / 8)).cur then wakeDomain s (0x200 + n / 8) src else s
  if bankCur b = 1 then bankPut s1 n { bankPowerTo b 0 with woken := true }
  else if bankCur b = 3 ∧ b.next = 1 then bankPut s1 n { b with woken := true }
  else s1

/-- Whether an access that cannot be served now is held rather than refused (R216). -/
def bankHolds (s : State) (n : Nat) : Bool :=
  let b := bank s n
  let d := domOf s (0x200 + n / 8)
  let own := bankCur b == 0 || (bitOf b.pwr 2 && bankCur b == 1) || (bankCur b == 3 && (b.next == 0 ||
    (b.next == 1 && bitOf b.pwr 2)))
  let grp := d.cur ≤ 1 || d.cur == 6 || (bitOf b.pwr 2 && (d.cur == 2 || (d.cur == 5 && d.into == 2)))
  own && grp

/-- An access on a fabric interface (R186 to R198, R216, R400). An interface whose bank is not its panel's, or has no
regional clock, accepts nothing and drives zero; without an edge of its clock it accepts nothing. `same` says that the access comes
at the edge at which the other interface's last one was accepted (R190). -/
def bankFabric (s : State) (n i : Nat) (same we : Bool) (op : Nat) (addr : BitVec 16) (w : PWord) (be : BitVec 8)
    (flip : BitVec 80) : State :=
  let b := bank s n
  let none_ : FabOut := { rdata := zeroWord, rstat := 0 }
  let put := fun (t : State) (o : FabOut) => let c := bank t n; bankPut t n { c with outs := tset none_ c.outs i o }
  if ownerFabric b.own n = false ∨ 16 ≤ fld b.cfg 36 32 then put s none_
  else if bankClocked s n = false ∨ fabricMeet b i same we op addr.toNat be = .held then s
  else if bankState s n ≠ 0 ∧ bankHolds s n = true then bankWake s n 3
  else if bankState s n ≠ 0 ∨ b.busy = true ∨ (wrapOf s (bankGroupKey n)).st ≠ WrapSt.running ∨
      (we = true ∧ (panelOf s (bankPanel n)).we = false) then put s { rdata := zeroWord, rstat := 3 }
  else
    let a := addr.toNat / 8
    let r := fabricTake b n i s.fresh same we op addr.toNat w be flip
    let s1 := put (bankSet (bump s 4) n r.2) r.1
    if fabricReads b n i we op be = true ∧ bankUe b s.fresh a flip = true then bankLog s1 n a else s1

/-- The access register operations that R30 grants: hub initiators and the debug access master at FULL (R30, R578). -/
def hubGrant (s : State) (init : Nat) : Bool := decide (init < 16) || (init == 0x10 && fld s.dbg.ctl 63 62 == 2)

/-- A port of panel p. -/
def portOfPanel (p init : Nat) : Bool := decide (0x2000 + 64 * p ≤ init) && decide (init < 0x2040 + 64 * p)

/-- BNK_OWN written (R199, R201): false where SEL is out of range. -/
def bankOwnSet (s : State) (n : Nat) (v : Word) : Bool × State :=
  if ownerLegal (ownerOf v) then (true, bankPut s n (bankWriteOwn (bank s n) (ownerOf v))) else (false, s)

/-- The panel of a bank is being loaded (R421). -/
def bankLoading (s : State) (n : Nat) : Bool := [2, 3, 4].contains (panelState s (bankPanel n))

/-- The accepted requests of one bank are cut off (R41, R200, R216). -/
def bankCut (s : State) (n code : Nat) : State :=
  let mine := fun (r : Req) => r.unit == bankGroupKey n && reqBank r == n
  respond { cutAll s (s.noc.accepted.filter mine) with noc := { s.noc with accepted := s.noc.accepted.filter (fun r => !mine r) } }
    ((s.noc.accepted.filter mine).map (fun r => r.err code))

/-- REQ of BNK_PWR written, 3 leaving it unchanged (R216, R221): a change begins, or follows the one under way. -/
def bankReqSet (s : State) (n req : Nat) : State :=
  if req = 3 then s
  else
    let b := bank s n
    let c := { b with pwr := setFld b.pwr 1 0 req, woken := false }
    let s1 := if req = 0 ∧ 2 ≤ (domOf s (0x200 + n / 8)).cur then wakeDomain s (0x200 + n / 8) 1 else s
    if bankCur b = 3 ∨ bankCur b = req then bankPut s1 n c else bankSet s1 n (bankPowerTo c req)

/-- MODE of BNK_BIST written (R212, R215): 1 and 2 start the test, from region 0 where none was under way, 0 and 3 end it after the region under test. -/
def bistSet (s : State) (n mode : Nat) : State :=
  let b := bank s n
  if mode = 1 ∨ mode = 2 then
    let r := if fld b.bist 63 62 = 0 ∧ bistPhase b = 0 then setFld b.bist 57 53 0 else b.bist
    bankPut s n { b with bist := setFld r 63 62 mode }
  else
    let c := bistFinish b
    bankSet s n { c with bist := setFld c.bist 63 62 0 }

/-- What BNK_PWR reads (R216, R221). -/
def bankPwrWord (s : State) (n : Nat) : Word := setFld (bank s n).pwr 5 4 (bankState s n)

/-- One word of a network read or write done by the bank (R192, R195, R202): what it returns, whether a conditional
write failed, and the state. -/
def bankWordOp (s : State) (n : Nat) (r : Req) (i : Nat) : PWord × Bool × State :=
  let b := bank s n
  let a := (r.word0 + i) % 8192
  let flip := r.flips.getD i 0
  let free := s.fresh + 4 * i
  let reads := r.isRead || r.isAtomic || r.be i != 0xFF
  let note := fun (t : State) => if reads = true ∧ bankUe b free a flip = true then bankLog t n a else t
  let fin := fun (p : PWord × Bank) => (p.1, false, note (bankPut s n p.2))
  match r.cmd with
  | .rd => fin (bankLook b free a flip)
  | .rde => fin (bankLook b free a flip)
  | .fadd => fin (bankFaddOp b free a r.imm flip)
  | .swap => fin (bankSwapOp b free a r.imm flip)
  | .rsvrd => fin (bankReserveOp b free a r.h.init.toNat flip)
  | .cwr => let p := bankCondOp b free a r.h.init.toNat r.imm flip; (zeroWord, !p.1, note (bankPut s n p.2))
  | _ => fin (zeroWord, bankMerge b free a (r.dataWord i) (r.be i) flip)

/-- A network request done by the bank, with its answer (R188, R192, R195). -/
def bankPerform (s : State) (r : Req) : State :=
  let n := reqBank r
  let init : List PWord × Bool × State := ([], false, s)
  let res := (List.range r.nWords).foldl (fun acc i =>
    let p := bankWordOp acc.2.2 n r i
    (acc.1 ++ [p.1], acc.2.1 || p.2.1, p.2.2)) init
  let ans := if r.isRead then r.rdr res.1
    else if r.cmd = .cwr then r.atr [] (if res.2.1 then 1 else 0)
    else if r.isAtomic then r.atr (res.1 ++ [zeroWord, zeroWord, zeroWord]) 0
    else r.ack
  respond (deferCheck (bump res.2.2 (4 * r.nWords))) [ans]

/-- How a bank meets a network request (R193 to R200, R216, R238, R400): an error code, 0 to serve it, or 256 to hold
it, or 257 to let it wait for the bank's clock. -/
def bankAdmit (s : State) (r : Req) : Nat :=
  let n := reqBank r
  let b := bank s n
  let i := r.h.init.toNat
  let debug := i == 0x10 && fld s.dbg.ctl 63 62 == 2
  if ownerAccepts b.own i = false ∧ debug = false then 1
  else if b.busy = true ∧ debug = false then 2
  else if (r.isWrite || r.isAtomic) = true ∧ (panelOf s (bankPanel n)).we = false ∧ ¬ i < 16 ∧ i ≠ 0x11 then 1
  else if r.isAtomic = true ∧ bankMode b = true then 4
  else if bankState s n = 0 then (if bankClocked s n then 0 else 257)
  else if bankHolds s n then 256
  else 2

/-- Requests that waited for a bank are served once it is ON (R216). -/
def bankServeHeld (s : State) (n : Nat) : State :=
  if bankClocked s n = false then s
  else
  let mine := fun (r : Req) => r.unit == bankGroupKey n && reqBank r == n
  (s.noc.accepted.filter mine).foldl (fun t r => bankPerform t r)
    { s with noc := { s.noc with accepted := s.noc.accepted.filter (fun r => !mine r) } }

/-- The word that the next step of the background test saves (R212). -/
def bistSaves (b : Bank) : Option Nat :=
  if bistPhase b = 1 then ((List.range 256).find? (fun j => !tget false b.inBuf j)).map (fun j => 256 * bistRegion b + j) else none

/-- A remap entry written, its copy reading through the code (R202, R207). -/
def remapWrite (s : State) (n k : Nat) (v : Word) (flip : BitVec 80) : State :=
  let b := bank s n
  let e := tget 0 b.remap k
  let copies := (bitOf e 63 && fld e 59 58 != 2 && !bitOf v 63 && fld v 12 0 == fld e 12 0) || (!bitOf e 63 && bitOf v 63)
  let t := bankSet (bump s 4) n (bankWriteRemap b k v s.fresh flip)
  if copies = true ∧ bankUe b s.fresh (fld v 12 0) flip = true then bankLog t n (fld v 12 0) else t

/-! ### Commands -/

/-- BANK_READ (R187, R188). -/
def execBankRead (b : BankId) (i : Fin 2) (same : Bool) (addr : BitVec 16) (flip : BitVec 80) (s : State) : Out :=
  .next (bankFabric s b i same false 0 addr zeroWord 0 flip)
/-- BANK_WRITE (R187, R188). -/
def execBankWrite (b : BankId) (i : Fin 2) (same : Bool) (addr : BitVec 16) (w : PWord) (be : BitVec 8) (flip : BitVec 80) (s : State) :
    Out := .next (bankFabric s b i same true 0 addr w be flip)
/-- BANK_FADD (R195). -/
def execBankFadd (b : BankId) (i : Fin 2) (same : Bool) (addr : BitVec 16) (w : PWord) (flip : BitVec 80) (s : State) : Out :=
  .next (bankFabric s b i same true 1 addr w 0xFF flip)
/-- BANK_SWAP (R195). -/
def execBankSwap (b : BankId) (i : Fin 2) (same : Bool) (addr : BitVec 16) (w : PWord) (flip : BitVec 80) (s : State) : Out :=
  .next (bankFabric s b i same true 2 addr w 0xFF flip)
/-- BANK_RESERVE_READ (R195, R196). -/
def execBankReserveRead (b : BankId) (i : Fin 2) (same : Bool) (addr : BitVec 16) (flip : BitVec 80) (s : State) : Out :=
  .next (bankFabric s b i same false 3 addr zeroWord 0 flip)
/-- BANK_CONDITIONAL_WRITE (R195). -/
def execBankConditionalWrite (b : BankId) (i : Fin 2) (same : Bool) (addr : BitVec 16) (w : PWord) (flip : BitVec 80) (s : State) : Out :=
  .next (bankFabric s b i same true 3 addr w 0xFF flip)
/-- BANK_PORT_WAIT_EXPIRE (R191): the oldest request that waits for the bank's port takes it. -/
def execBankPortWaitExpire (b : BankId) (s : State) : Out :=
  if bankState s b ≠ 0 ∨ bankClocked s b = false then .next s
  else match takeFirst (fun (r : Req) => r.unit == bankGroupKey b && reqBank r == b.val) s.noc.accepted with
    | none => .next s
    | some (r, rest) => .next (bankPerform { s with noc := { s.noc with accepted := rest } } r)

/-- The oldest correction reaches the array (R203). -/
def bankWb (b : Bank) : Bank :=
  match b.wbs with
  | [] => b
  | (a, w) :: _ => bankStore b a w

/-- CORRECTION_WRITE_BACK (R203). -/
def execCorrectionWriteBack (b : BankId) (s : State) : Out := .next (bankSet s b (bankWb (bank s b)))
/-- WRITE_BACK_FORCE (R203): after 64 bank cycles the write-back takes the port unconditionally. -/
def execWriteBackForce (b : BankId) (s : State) : Out := .next (bankSet s b (bankWb (bank s b)))
/-- RESERVATION_LAPSE (R196): the oldest reservation on the word lapses. -/
def execReservationLapse (b : BankId) (word : Fin 8192) (s : State) : Out :=
  let x := bank s b
  match takeFirst (fun (r : Resv) => r.word == word.val) x.resv with
  | none => .next s
  | some (_, rest) => .next (bankSet s b { x with resv := rest })
/-- BANK_HANDOVER: BNK_OWN written (R199, R201). -/
def execBankHandover (init : BitVec 16) (b : BankId) (v : Word) (s : State) : Out :=
  if (hubGrant s init.toNat || portOfPanel (bankPanel b) init.toNat) && (init.toNat < 16 || !bankLoading s b) then
    .next (bankOwnSet s b v).2
  else .next s
/-- HANDOVER_COMPLETE (R199). -/
def execHandoverComplete (b : BankId) (s : State) : Out :=
  let x := bank s b
  if x.busy then let t := bankCut s b 3; .next (bankSet t b (bankSwitch (bank t b))) else .next s
/-- BANK_MODE_WRITE: BNK_CFG written (R193, R219). -/
def execBankModeWrite (init : BitVec 16) (b : BankId) (v : Word) (s : State) : Out :=
  if hubGrant s init.toNat then .next (bankSet s b (bankWriteCfg (bank s b) v)) else .next s
/-- REMAP_SET (R207). -/
def execRemapSet (b : BankId) (k : Fin 4) (word : Fin 8192) (flip : BitVec 80) (s : State) : Out :=
  .next (remapWrite s b k (mkWord [(63, 63, 1), (12, 0, word.val)]) flip)
/-- REMAP_CLEAR (R207). -/
def execRemapClear (b : BankId) (k : Fin 4) (flip : BitVec 80) (s : State) : Out :=
  .next (remapWrite s b k (mkWord [(12, 0, fld (tget 0 (bank s b).remap k) 12 0)]) flip)
/-- BANK_ERR_CLEAR (R222). -/
def execBankErrClear (b : BankId) (s : State) : Out :=
  let x := bank s b
  .next (bankPut s b { x with err := setFld (setFld x.err 63 48 0) 47 40 0 })
/-- SCRUB_READ (R210, R211): the next valid word is read; `us` is the lap's duration if this ends it. -/
def execScrubRead (b : BankId) (flip : BitVec 80) (us : Nat) (s : State) : Out :=
  let x := bank s b
  if bitOf x.scrub 63 = false ∨ bankState s b ≠ 0 ∨ bankClocked s b = false then .next s
  else match scrubNext x x.scrubPos with
    | none => .next (bankPut s b (lapEnd x us))
    | some a =>
      let r := bankLook x s.fresh a flip
      let y := { r.2 with scrubPos := a + 1 }
      let s1 := bankPut (bump s 4) b (if (scrubNext y (a + 1)).isNone then lapEnd y us else y)
      .next (if bankUe x s.fresh a flip then bankLog s1 b a else s1)
/-- SCRUB_STARVE (R211). -/
def execScrubStarve (b : BankId) (s : State) : Out :=
  let x := bank s b
  .next (if bitOf x.scrub 63 then bankPut s b { x with scrub := setBit x.scrub 62 true } else s)
/-- BIST_START (R212). -/
def execBistStart (b : BankId) (mode : Fin 4) (s : State) : Out := .next (bistSet s b mode)
/-- BIST_STOP (R215). -/
def execBistStop (b : BankId) (s : State) : Out := .next (bistSet s b 0)
/-- BIST_STEP (R212 to R214): no region begins while the group's wrapper drains (R227). -/
def execBistStep (b : BankId) (mismatch : Bool) (flip : BitVec 80) (s : State) : Out :=
  let x := bank s b
  if bankState s b ≠ 0 ∨ bankClocked s b = false ∨ (bistPhase x = 0 ∧ (wrapOf s (bankGroupKey b)).st ≠ WrapSt.running) then .next s
  else
    let t := bankSet (bump s 4) b (bistAdvance x mismatch flip s.fresh)
    .next (match bistSaves x with
      | some a => if bankUe x s.fresh a flip then bankLog t b a else t
      | none => t)
/-- BANK_POWER_REQUEST (R216, R221). -/
def execBankPowerRequest (b : BankId) (req : Fin 4) (s : State) : Out := .next (bankReqSet s b req)
/-- BANK_POWER_DONE (R216, R217): the state is entered; on entry to RET or OFF what is still accepted is cut off; a
held access or a new REQ starts the next change; held requests are served at ON. -/
def execBankPowerDone (b : BankId) (s : State) : Out :=
  let x := bank s b
  if bankCur x ≠ 3 then .next s
  else
    let y := bankPowerDoneOp x
    if bankCur y = 0 then
      let t := bankPut s b y
      if fld y.pwr 1 0 ≠ 0 ∧ y.woken = false then .next (bankSet t b (bankPowerTo y (fld y.pwr 1 0)))
      else .next (bankServeHeld t b)
    else if y.woken = true ∧ bankCur y = 1 then .next (bankPut s b (bankPowerTo y 0))
    else
      let cut := bankCut s b 3
      let z := bankPowerDoneOp (bank cut b)
      let t := bankPut cut b z
      if fld y.pwr 1 0 ≠ bankCur y then .next (bankPut t b (bankPowerTo z (fld z.pwr 1 0))) else .next t
/-- BANK_LINGER_EXPIRE (R216): a bank that an access woke returns to RET. -/
def execBankLingerExpire (b : BankId) (s : State) : Out :=
  let x := bank s b
  if x.woken = true ∧ bankCur x = 0 ∧ fld x.pwr 1 0 = 1 then
    .next (bankSet s b { bankPowerTo x 1 with woken := false })
  else .next s

end Sys2Proof.Machine
end

