-- ==== Sys2Proof/Machine/Cell.lean ====
section
/-! DEFINITION. Word cells: one cycle of a cell for each operation of R54, and of a cell in bit mode (R42 to R64). -/

namespace Sys2Proof.Machine
open Sys2Proof

/-- The result, flags and chain outputs of an operation (R54 to R56). `old` is the value of DST before the write. -/
def cellAlu (slot a b old : Nat) (ci ei : Bool) : CellRes :=
  let op := nfld slot 47 42
  let chn := nfld slot 23 22
  let width := nfld slot 19 18
  let sat := nbit slot 17
  let sgn := nbit slot 16
  let imm := nfld slot 15 0
  let p := imm % 64
  let l := nfld imm 11 6 + 1
  let w := 64 >>> width
  let lanes := joinLanes w (2 ^ width)
  let mx := fun (f : Int → Int → Int) => resZN (lanes (fun i =>
    wrapTo w (f (laneInt sgn w (lane w i a)) (laneInt sgn w (lane w i b)))))
  if op = 0x01 then resZN a
  else if op = 0x02 then resZN b
  else if op = 0x04 then cellSum false sat sgn width chn a b ci
  else if op = 0x05 then cellSum true sat sgn width chn a b ci
  else if op = 0x06 then
    let r := cellSum true false sgn width chn a b ci
    let eo := decide (a = b) && (decide (chn ≠ 3) || ei)
    { r with eo := eo, z := if chn = 3 then some eo else r.z, wreg := false }
  else if op = 0x07 then mx min
  else if op = 0x08 then mx max
  else if op = 0x09 then
    resZ (lanes (fun i => (laneInt sgn w (lane w i a) - laneInt sgn w (lane w i b)).natAbs))
  else if op = 0x10 then resZN (a &&& b)
  else if op = 0x11 then resZN (a ||| b)
  else if op = 0x12 then resZN (a ^^^ b)
  else if op = 0x13 then resZN (a &&& (2 ^ 64 - 1 - b))
  else if 0x14 ≤ op ∧ op ≤ 0x17 then cellShift op sgn width a b
  else if op = 0x18 then
    let x := (a >>> p) % 2 ^ l
    resZN (if sgn then wrapTo 64 (sext l x) else x)
  else if op = 0x19 then
    let m := ((2 ^ l - 1) <<< p) % 2 ^ 64
    resZN ((a &&& (2 ^ 64 - 1 - m)) ||| (((b % 2 ^ l) <<< p) % 2 ^ 64))
  else if op = 0x1A then resZ (popcount 64 a)
  else if op = 0x1B then resZ (clz64 a)
  else if op = 0x20 then resZ (joinLanes 16 4 (fun i => wrapTo 16 (mul16 sgn i a b)))
  else if op = 0x21 then resZ (joinLanes 16 4 (fun i => wrapTo 32 (mul16 sgn i a b) >>> 16))
  else if op = 0x22 then resZ (joinLanes 32 2 (fun i => wrapTo 32 (mul16 sgn i a b)))
  else if op = 0x23 then resZ (joinLanes 32 2 (fun i => wrapTo 32 (mul16 sgn (i + 2) a b)))
  else if op = 0x24 then resZN (wrapTo 64 (dot4 sgn a b))
  else resZN (wrapTo 64 (old + dot4 sgn a b))

/-- The predicate CC (R50). -/
def cellPred (cc : Nat) (x : Cell) (i : CellPins) : Bool :=
  match cc with
  | 1 => i.bi.getLsbD 7
  | 2 => !i.bi.getLsbD 7
  | 3 => x.z
  | 4 => !x.z
  | 5 => x.cy
  | 6 => !x.cy
  | 7 => x.n
  | 8 => !x.n
  | _ => true

/-- Register number r of a cell set to v. -/
def cellSetReg (x : Cell) (r : Nat) (v : Word) : Cell :=
  match r with
  | 0 => { x with a := v }
  | 1 => { x with b := v }
  | 2 => { x with c := v }
  | _ => { x with d := v }

/-- The value a word output takes (R50 WO0S, WO1S). -/
def cellWout (sel : Nat) (old res opA : Word) : Word :=
  match sel with
  | 0 => old
  | 1 => res
  | 2 => opA
  | _ => 0

/-- The sequence index of the next cycle (R57). -/
def cellNextIx (ctl : Nat) (x : Cell) : Nat :=
  if nfld ctl 2 1 = 1 then (x.ctx + 1) % (nfld ctl 5 3 + 1) else x.ctx

/-- One enabled cycle of a word-mode cell executing `slot` (R42, R50, R52). -/
def cellExecute (slot : Nat) (i : CellPins) (x : Cell) : Cell :=
  if nfld slot 47 42 = 0 then { x with co := false, eo := false }
  else if cellPred (nfld slot 27 24) x i = false then { x with co := false, eo := false }
  else
    let regs := [x.a, x.b, x.c, x.d]
    let opA := cellOperand regs i (nfld slot 41 39)
    let opB := if nbit slot 35 then cellImm (nbit slot 16) (nfld slot 19 18) (nfld slot 15 0)
               else cellOperand regs i (nfld slot 38 36)
    let dst := nfld slot 34 33
    let r := cellAlu slot opA opB ((regs.getD dst 0).toNat) i.ci i.ei
    let res := BitVec.ofNat 64 r.res
    let y := if nbit slot 32 && r.wreg then cellSetReg x dst res else x
    let z := r.z.getD x.z
    let n := r.n.getD x.n
    let c := r.c.getD x.cy
    let v := r.v.getD x.v
    { y with
      z := z, n := n, cy := c, v := v
      wo0 := cellWout (nfld slot 31 30) x.wo0 res (BitVec.ofNat 64 opA)
      wo1 := cellWout (nfld slot 29 28) x.wo1 res (BitVec.ofNat 64 opA)
      bo := match nfld slot 21 20 with
        | 0 => x.bo
        | 1 => BitVec.ofNat 4 (8 * v.toNat + 4 * n.toNat + 2 * c.toNat + z.toNat)
        | 2 => BitVec.ofNat 4 r.res
        | _ => 0
      co := r.co, eo := r.eo }

/-- A word-mode cell's cycle: with its enable low it writes nothing and its index holds; CO and EO follow its inputs
(R49, log entry 7). -/
def cellCycle (ctl slot : Nat) (i : CellPins) (x : Cell) : Cell :=
  let y := cellExecute slot i x
  if cellEnabled ctl i then { y with ctx := cellNextIx ctl x }
  else { x with co := y.co, eo := y.eo }

/-- The select of a cell's input k: 0 to 3 WI0 to WI3, 4 to 11 BI0 to BI7 (R388). -/
def cellSelect (s : State) (c k : Nat) : Nat := nfld (cellFrameWord s c 7).toNat (5 * k + 4) (5 * k)

/-- What cell c sees (R46, R86): an input whose select is unused is 0; CI and EI are the CO and EO that the cell below
last drove (log entry 21), 0 and 1 in the bottom row of a panel. -/
def cellPins (s : State) (c : Nat) (i : CellIn) : CellPins :=
  let w := fun (k : Nat) (x : Word) => if cellSelect s c k = 31 then 0 else x
  let below := tget {} s.cells (c - 1)
  { wi0 := w 0 i.wi0, wi1 := w 1 i.wi1, wi2 := w 2 i.wi2, wi3 := w 3 i.wi3
    bi := BitVec.ofNat 8 ((List.range 8).foldl (fun m k =>
      if i.bi.getLsbD k && cellSelect s c (4 + k) != 31 then m + 2 ^ k else m) 0)
    ci := c % 256 != 0 && below.co
    ei := c % 256 == 0 || below.eo }

/-- The energy of a cell's cycle in hundredths of a picojoule, budgeting column (R71). -/
def cellEnergy (op : Nat) (en runs : Bool) : Nat :=
  if en = false then 1 else if op = 0 ∨ runs = false then 8 else if 0x20 ≤ op then 160 else 55

/-- The activity counters of the cell's die count a cycle (R73). -/
def cellActive (s : State) (c e : Nat) : State :=
  let d := cellPanel c / 8
  let g := tget {} s.gov.dies d
  { s with gov := { s.gov with dies := tset {} s.gov.dies d { g with act := g.act + e } } }

/-- The word-mode command for operation `op`: it acts where the cell is clocked, in word mode, and the slot its context
index selects holds that operation (log entry 2). A cell its asserted reset tree reaches stays at zero (R44). -/
def cellOp (op : Nat) (c : CellId) (inp : CellIn) (s : State) : State :=
  let i := cellPins s c inp
  let ctl := cellCtl s c
  let x := tget {} s.cells c
  let slot := cellSlot s c (cellIndex ctl x.ctx i)
  if nbit ctl 0 = false ∧ nfld slot 47 42 = op ∧ rclkRuns s (cellRclk s c) = true then
    let t := cellActive s c (cellEnergy op (cellEnabled ctl i) (cellPred (nfld slot 27 24) x i))
    if nbit ctl 10 = true ∧ rclkInReset s (cellRclk s c) = true then t
    else { t with cells := tset {} s.cells c (cellCycle ctl slot i x) }
  else s

/-- LUT k of a bit-mode cell whose slot vector is V (R60, R61), on the inputs of index j. -/
def lutOut (V k j : Nat) (i : CellPins) : Bool :=
  let ix := 8 * (bitOf i.wi3 j).toNat + 4 * (bitOf i.wi2 j).toNat + 2 * (bitOf i.wi1 j).toNat + (bitOf i.wi0 j).toNat
  nbit (V >>> (16 * k)) ix

/-- The settings byte of element k (R60, R62). -/
def elemSet (V k : Nat) : Nat := (V >>> (256 + 8 * k)) % 256

/-- The combinational output of element k (R62, R63). -/
def elemComb (V k : Nat) (i : CellPins) : Bool :=
  if k % 2 = 0 && nbit (elemSet V k) 7 then
    (if bitOf i.wi0 (k + 1) then lutOut V (k + 1) k i else lutOut V k k i)
  else if k % 2 = 1 && nbit (elemSet V (k - 1)) 7 then lutOut V k (k - 1) i
  else lutOut V k k i

/-- SRVAL of the sixteen elements (R62). -/
def srVals (V : Nat) : BitVec 16 :=
  BitVec.ofNat 16 ((List.range 16).foldl (fun m k => m + (nbit (elemSet V k) 6).toNat <<< k) 0)

/-- The set/reset input of element k is active (R62). -/
def elemSr (V k : Nat) (i : CellPins) : Bool :=
  let sr := nfld (elemSet V k) 4 3
  sr != 0 && i.bi.getLsbD (sr + 2)

/-- The next value of the flip-flop of element k, with the priority of R64 below the regional reset. -/
def elemNext (V k : Nat) (en : Bool) (i : CellPins) (q : Bool) : Bool :=
  let e := elemSet V k
  if elemSr V k i then nbit e 6
  else if en = false then q
  else
    let ce := nfld e 2 1
    if ce ≠ 0 ∧ i.bi.getLsbD (ce - 1) = false then q
    else if nbit e 0 then bitOf i.wi3 k else elemComb V k i

/-- Sixteen bits from a function of the element. -/
def bits16 (f : Nat → Bool) : BitVec 16 := BitVec.ofNat 16 ((List.range 16).foldl (fun m k => m + (f k).toNat <<< k) 0)

/-- The flip-flops of a bit-mode cell stand at q: WO0 is they, BO0 to BO3 those of elements 0, 4, 8 and 12 (R64). -/
def bitOuts (V : Nat) (q : BitVec 16) (x : Cell) : Cell :=
  { x with
    ffx := q ^^^ srVals V, wo0 := q.setWidth 64
    bo := BitVec.ofNat 4 ((List.range 4).foldl (fun m j => m + (q.getLsbD (4 * j)).toNat <<< j) 0) }

/-- WO0 and BO0 to BO3 of a cell as they stand: in bit mode its flip-flops, those of an element at SRVAL before its first
clock too (R62, R64). -/
def cellWo0 (s : State) (c : Nat) : Word :=
  if nbit (cellCtl s c) 0 then (bitOuts (cellVec s c) ((tget {} s.cells c).ffx ^^^ srVals (cellVec s c)) {}).wo0 else (tget {} s.cells c).wo0
def cellBo (s : State) (c : Nat) : BitVec 4 :=
  if nbit (cellCtl s c) 0 then (bitOuts (cellVec s c) ((tget {} s.cells c).ffx ^^^ srVals (cellVec s c)) {}).bo else (tget {} s.cells c).bo

/-- One cycle of a cell in bit mode (R49, R60 to R64); WO1 holds while the cell enable is low (log entry 19). -/
def cellBitCycle (ctl V : Nat) (i : CellPins) (x : Cell) : Cell :=
  let q := x.ffx ^^^ srVals V
  let en := cellEnabled ctl i
  { bitOuts V (bits16 (fun k => elemNext V k en i (q.getLsbD k))) x with
    wo1 := if en then (bits16 (fun k => elemComb V k i)).setWidth 64 else x.wo1
    co := false, eo := false }

/-- A bit-mode cell that no clock reaches: an active set/reset of an element with SRASYNC acts at once (R62). -/
def cellAsync (V : Nat) (i : CellPins) (x : Cell) : Cell :=
  let q := x.ffx ^^^ srVals V
  bitOuts V (bits16 (fun k => if nbit (elemSet V k) 5 && elemSr V k i then nbit (elemSet V k) 6 else q.getLsbD k)) x

/-- A cell of the window that hosts a logic block: flip-flop k of the block is element k, for k = 0 to 7 (R447, R449). -/
def lgHold (s : State) (c V : Nat) (x : Cell) : Cell :=
  match lgBlockAt c with
  | none => x
  | some b =>
    if s.lg.hosted = false then x
    else
      let q := x.ffx ^^^ srVals V
      bitOuts V (bits16 (fun k => if k < 8 then lgFlip s b.1 b.2 k else q.getLsbD k)) x

/-- NOP in a word cell (R54, operation 0x00). -/
def execCellNop (c : CellId) (i : CellIn) (s : State) : Out := .next (cellOp 0x00 c i s)

/-- MOV in a word cell (R54, operation 0x01). -/
def execCellMov (c : CellId) (i : CellIn) (s : State) : Out := .next (cellOp 0x01 c i s)

/-- MOVB in a word cell (R54, operation 0x02). -/
def execCellMovb (c : CellId) (i : CellIn) (s : State) : Out := .next (cellOp 0x02 c i s)

/-- ADD in a word cell (R54, operation 0x04). -/
def execCellAdd (c : CellId) (i : CellIn) (s : State) : Out := .next (cellOp 0x04 c i s)

/-- SUB in a word cell (R54, operation 0x05). -/
def execCellSub (c : CellId) (i : CellIn) (s : State) : Out := .next (cellOp 0x05 c i s)

/-- CMP in a word cell (R54, operation 0x06). -/
def execCellCmp (c : CellId) (i : CellIn) (s : State) : Out := .next (cellOp 0x06 c i s)

/-- MIN in a word cell (R54, operation 0x07). -/
def execCellMin (c : CellId) (i : CellIn) (s : State) : Out := .next (cellOp 0x07 c i s)

/-- MAX in a word cell (R54, operation 0x08). -/
def execCellMax (c : CellId) (i : CellIn) (s : State) : Out := .next (cellOp 0x08 c i s)

/-- ABSD in a word cell (R54, operation 0x09). -/
def execCellAbsd (c : CellId) (i : CellIn) (s : State) : Out := .next (cellOp 0x09 c i s)

/-- AND in a word cell (R54, operation 0x10). -/
def execCellAnd (c : CellId) (i : CellIn) (s : State) : Out := .next (cellOp 0x10 c i s)

/-- OR in a word cell (R54, operation 0x11). -/
def execCellOr (c : CellId) (i : CellIn) (s : State) : Out := .next (cellOp 0x11 c i s)

/-- XOR in a word cell (R54, operation 0x12). -/
def execCellXor (c : CellId) (i : CellIn) (s : State) : Out := .next (cellOp 0x12 c i s)

/-- ANDN in a word cell (R54, operation 0x13). -/
def execCellAndn (c : CellId) (i : CellIn) (s : State) : Out := .next (cellOp 0x13 c i s)

/-- SHL in a word cell (R54, operation 0x14). -/
def execCellShl (c : CellId) (i : CellIn) (s : State) : Out := .next (cellOp 0x14 c i s)

/-- SHR in a word cell (R54, operation 0x15). -/
def execCellShr (c : CellId) (i : CellIn) (s : State) : Out := .next (cellOp 0x15 c i s)

/-- ROL in a word cell (R54, operation 0x16). -/
def execCellRol (c : CellId) (i : CellIn) (s : State) : Out := .next (cellOp 0x16 c i s)

/-- ROR in a word cell (R54, operation 0x17). -/
def execCellRor (c : CellId) (i : CellIn) (s : State) : Out := .next (cellOp 0x17 c i s)

/-- EXT in a word cell (R54, operation 0x18). -/
def execCellExt (c : CellId) (i : CellIn) (s : State) : Out := .next (cellOp 0x18 c i s)

/-- INS in a word cell (R54, operation 0x19). -/
def execCellIns (c : CellId) (i : CellIn) (s : State) : Out := .next (cellOp 0x19 c i s)

/-- POPC in a word cell (R54, operation 0x1A). -/
def execCellPopc (c : CellId) (i : CellIn) (s : State) : Out := .next (cellOp 0x1A c i s)

/-- CLZ in a word cell (R54, operation 0x1B). -/
def execCellClz (c : CellId) (i : CellIn) (s : State) : Out := .next (cellOp 0x1B c i s)

/-- MULLO in a word cell (R54, operation 0x20). -/
def execCellMullo (c : CellId) (i : CellIn) (s : State) : Out := .next (cellOp 0x20 c i s)

/-- MULHI in a word cell (R54, operation 0x21). -/
def execCellMulhi (c : CellId) (i : CellIn) (s : State) : Out := .next (cellOp 0x21 c i s)

/-- MULW0 in a word cell (R54, operation 0x22). -/
def execCellMulw0 (c : CellId) (i : CellIn) (s : State) : Out := .next (cellOp 0x22 c i s)

/-- MULW1 in a word cell (R54, operation 0x23). -/
def execCellMulw1 (c : CellId) (i : CellIn) (s : State) : Out := .next (cellOp 0x23 c i s)

/-- DOT4 in a word cell (R54, operation 0x24). -/
def execCellDot4 (c : CellId) (i : CellIn) (s : State) : Out := .next (cellOp 0x24 c i s)

/-- DOTACC in a word cell (R54, operation 0x25). -/
def execCellDotacc (c : CellId) (i : CellIn) (s : State) : Out := .next (cellOp 0x25 c i s)

/-- One clock of a cell in bit mode (R60 to R64); a regional reset that reaches it holds its flip-flops at SRVAL, and with
its clock stopped an asynchronous set/reset alone acts. A cell that hosts a legacy block takes what the MK2140 would hold
(R449). -/
def execBitModeClock (c : CellId) (inp : CellIn) (edge : Option LgEdge) (s0 : State) : Out :=
  let s := lgTick s0 (rclkRuns s0 (cellRclk s0 c)) edge
  let i := cellPins s c inp
  let ctl := cellCtl s c
  let V := cellVec s c
  if nbit ctl 0 = false then .next s
  else
    let runs := rclkRuns s (cellRclk s c)
    let t := if runs then cellActive s c (if cellEnabled ctl i then 30 else 1) else s
    if nbit ctl 10 = true ∧ rclkInReset s (cellRclk s c) = true then .next t
    else
      let x := tget {} s.cells c
      .next { t with cells := tset {} s.cells c (if runs then lgHold s c V (cellBitCycle ctl V i x) else cellAsync V i x) }

end Sys2Proof.Machine
end

