-- ==== Sys2Proof/Machine/Guard.lean ====
section
/-! DEFINITION. The commands of the GDDR7 controllers and their memory guards, and how a guard admits a request
(R281 to R335). -/

namespace Sys2Proof.Machine
open Sys2Proof

/-! ### Shared operations -/

/-- The external address bytes of a controller's die: fabric die of controller m (R23). -/
def mcDie (m : Nat) : Nat := m / 2

/-- A controller and its guard put back after an event, with what it answers, logs and raises; the answers go before the
alarms (R320). -/
def gsPut (s : State) (x : GS) : State :=
  let s1 := respond (gsKeep s x) x.resps
  alarms (x.logs.foldl (fun t d => faultLog t 0x06 x.m d) s1) x.alarms

/-- A window, window 0 being kept as its difference from its reset value (R334, R335; log entry 3). -/
def winGet (g : Guard) (n : Nat) : Window :=
  let w := tget {} g.wins n
  if n = 0 then { range := w.range ^^^ 0xFFFFFFFF00000000, rights := w.rights ^^^ 0x3 } else w
def winPut (g : Guard) (n : Nat) (w : Window) : Guard :=
  let k : Window := if n = 0 then { range := w.range ^^^ 0xFFFFFFFF00000000, rights := w.rights ^^^ 0x3 } else w
  { g with wins := tset {} g.wins n k }

/-- A window written (R324, R334, R335): E exists for classes 4 and 5 alone. -/
def winWrite (g : Guard) (n : Nat) (rights : Bool) (v : Word) : Guard :=
  let w := winGet g n
  if rights then
    let m := fldMask 63 32 ||| (fldMask 27 0 &&& ~~~ (0x4 ||| 0x40 ||| 0x400 ||| 0x4000 ||| 0x4000000))
    winPut g n { w with rights := v &&& m }
  else winPut g n { w with range := v }

def winOn (w : Window) : Bool := fld w.rights 31 0 != 0
def winHolds (w : Window) (a : Nat) : Bool := decide (fld w.range 31 0 ≤ a / 65536) && decide (a / 65536 ≤ fld w.range 63 32)

/-- The window that decides for an address: the highest-numbered enabled one that holds it (R322). -/
def winFor (g : Guard) (a : Nat) : Option Window :=
  ((List.range 16).reverse.map (winGet g)).find? (fun w => winOn w && winHolds w a)

/-- The rights group of an initiator (R28, R388). -/
def initGroup (s : State) (i : Nat) : Nat :=
  if 0x2000 ≤ i ∧ i < 0x2800 then fld (portCfg s ((i - 0x2000) / 64) ((i - 0x2000) % 64)) 12 8 else 0

/-- The basting area of a load in progress in external memory (R392, R394). -/
def basteHolds (s : State) (a : Nat) : Bool :=
  s.ld.area == 2 && ldState s != 0 && decide (s.ld.base ≤ a) && decide (a < s.ld.base + 2 ^ 28)

/-- What a guard decides of a request (R321, R322): a reason, or 0 and whether an early-data window admits it. -/
def guardDecide (s : State) (m : Nat) (r : Req) : Nat × Bool :=
  let g := grdOf s m
  let mm := memMap s
  let i := r.h.init.toNat
  let c := initClass i
  let rw := fun (w : Window) =>
    let b := fld w.rights (4 * c + 3) (4 * c)
    let side := if r.isRead then nbit b 0 else nbit b 1
    side && (!nbit b 3 || bitOf w.rights (32 + initGroup s i))
  if dataGroups mm.gb ≤ (mm.locate (m / 2 ^ mm.s) (r.a % 2 ^ (34 + mm.s))).group then (3, false)
  else if c = 1 ∧ fld s.dbg.ctl 63 62 ≠ 2 then (4, false)
  else if c = 2 ∧ basteHolds s r.a = true then (0, false)
  else match winFor g r.a with
    | none => (1, false)
    | some w =>
      if rw w = false then (2, false)
      else
        (0, r.cmd == .rde && (c == 4 || c == 5) && bitOf g.ctl 0 && nbit (fld w.rights (4 * c + 3) (4 * c)) 2)

/-- One path lookup counted for HIT (R331). -/
def guardLook (g0 : Guard) (now : Nat) (hit : Bool) : Guard :=
  let g := guardRoll g0 now
  { g with looks := g.looks + 1, hits := g.hits + hit.toNat }

/-- An admitted request enters the controller: the devices leave power-down, the metadata lines of its path that the cache does
not hold and the blocks it must read are asked for, and it is served as soon as nothing is missing (R275, R281, R284, R289,
R316). -/
def guardEnter (x : GS) (r : Req) (early : Bool) : GS :=
  let la := (reqLines r).headD 0
  let l := x.loc la
  let pd : GPend := { req := r, early := early, since := x.now }
  let y : GS := { x with
    mc := { x.mc with stat := setBit x.mc.stat 59 false }
    g := { guardLook x.g x.now (cached x.g (x.page la)) with pend := x.g.pend ++ [pd] } }
  let z := y.fetch (missing x (x.page la))
  let w := if r.isRead then z.readOut l.bank l.group ((reqLines r).map (fun a => a % 8))
    else if wholeGroup r then z else z.readOut l.bank l.group (touchedLines r)
  w.settle

/-- Whether a controller and its guard serve requests now (R285, R290, R304). -/
def mcServing (s : State) (m : Nat) : Bool :=
  mcState (mcOf s m) == 2 && (gState (grdOf s m) == 2 || gState (grdOf s m) == 3)

/-- An admitted request as it waits for a controller that does not serve: an RDE that no early-data window admitted is an RD
(R321), so the window that admitted it holds for it later too (R324). -/
def heldAs (r : Req) (m : Nat) (early : Bool) : Req :=
  { r with unit := 5000 + m, cmd := if r.cmd == .rde && !early then .rd else r.cmd }

/-- A request reaches controller m (R290, R291, R304, R320): answered, held until READY, or admitted. -/
def guardReq (s : State) (m : Nat) (r : Req) : State :=
  if mcState (mcOf s m) = 5 then respond s [r.err 0x10]
  else if r.isAtomic then respond s [r.err 4]
  else
    let d := guardDecide s m r
    if d.1 ≠ 0 then respond s [r.err (9 + 256 * d.1)]
    else if mcServing s m then gsPut s (guardEnter (gsOf s m) r d.2)
    else { s with noc := { s.noc with accepted := s.noc.accepted ++ [heldAs r m d.2] } }

/-- Requests held while a controller was away are served in order (R288, R290, R304, R324). -/
def mcServeHeld (s : State) (m : Nat) : State :=
  if mcServing s m then
    let mine := s.noc.accepted.filter (fun r => r.unit == 5000 + m)
    let s1 := mine.foldl (fun t r => gsPut t (guardEnter (gsOf t m) r (r.cmd == .rde)))
      { s with noc := { s.noc with accepted := s.noc.accepted.filter (fun r => r.unit != 5000 + m) } }
    gsPut s1 (gsOf s1 m).settle
  else s

/-- A controller enters FAILED: everything it holds draws MCFAIL (R291), class MCFAIL of the fault log. -/
def mcFail (s : State) (m : Nat) : State :=
  let s1 := wrapAnswer s (5000 + m) 0x10
  faultLog (mcPut s1 m (mcSet { mcOf s1 m with replay := 0, fails := 0, stopping := false } 5)) 0x08 m 0

/-- A controller becomes READY; a stop asked for meanwhile follows (R285). -/
def mcReady (s : State) (m : Nat) : State :=
  let c := mcOf s m
  let s1 := mcPut s m (mcSet c 2)
  if c.stopping then ctrlStop s1 m false else mcServeHeld s1 m

/-- One event of a guard that serves (R316 to R319). -/
def guardEvent (s : State) (m : Nat) (f : GS → GS) : State :=
  if mcServing s m then gsPut s (f (gsOf s m)) else s

/-- MC_CTL written (R297); RETRAIN acts only in READY. -/
def mcCtlWrite (s : State) (m : Nat) (v : Word) : State :=
  let c := mcOf s m
  let y := { c with ctl := v &&& fldMask 63 24 }
  mcPut s m (if bitOf v 0 = true ∧ mcState c = 2 then mcSet y 6 else y)

/-- MC_ERR written (R299), CLR after the write-1-to-clear bits. -/
def mcErrWrite (c : Mc) (v : Word) : Mc :=
  let e := c.err &&& ~~~ (v &&& fldMask 16 15)
  { c with err := if bitOf v 17 then e &&& ~~~ fldMask 63 20 else e }

/-- GRD_ERR written (R332). -/
def grdErrWrite (g : Guard) (v : Word) : Guard :=
  let e := g.err &&& ~~~ (v &&& fldMask 4 0)
  { g with err := if bitOf v 7 then e &&& ~~~ fldMask 63 32 else e }

/-! ### Commands of the controllers -/

/-- LINE_WRITE_BACK (R274): the oldest corrected line whose tag is good is written back. -/
def execLineWriteBack (m : McId) (s : State) : Out :=
  match (mcOf s m).wbs with
  | [] => .next s
  | p :: _ => .next (if mcState (mcOf s m) = 2 then gsKeep s ((gsOf s m).writeBack p) else s)

/-- The refresh a controller issues in its state (R270, R283, R288): per bank in service, in a retrain and in recovery; all banks at
once before training completes; none in self-refresh or where the devices are not served. Its row closes. -/
def mcRefreshed (c : Mc) (bank : Nat) : Mc :=
  if mcState c = 1 then
    mcIssue { c with refs := (List.range 128).foldl (fun t b => tset 0 t b (tget 0 t b + 1)) c.refs, rows := [] } [.refreshAll]
  else if mcState c = 2 ∨ mcState c = 3 ∨ mcState c = 6 then
    mcIssue { c with refs := tset 0 c.refs bank (tget 0 c.refs bank + 1), rows := tset 0 c.rows bank 0 } [.refresh bank]
  else c
/-- REFRESH (R283). -/
def execMcRefresh (m : McId) (bank : Fin 128) (s : State) : Out := .next (mcPut s m (mcRefreshed (mcOf s m) bank))
/-- MC_TEMP_HIGH (R283). -/
def execMcTempHigh (m : McId) (s : State) : Out :=
  let c := mcOf s m
  .next (if mcState c = 0 then s else mcPut s m { c with stat := setBit c.stat 58 true })
/-- MC_POWER_DOWN (R284): an idle controller with PD_TMO nonzero places its devices in power-down. -/
def execMcPowerDown (m : McId) (s : State) : Out :=
  let c := mcOf s m
  .next (if mcState c = 2 ∧ fld c.ctl 63 48 ≠ 0 ∧ unitBusy s (5000 + m) = false then
      mcPut s m { c with stat := setBit c.stat 59 true } else s)
/-- A training or quick retrain that has ended is recorded: TRAIN, and FAILCH (R287, R298). -/
def mcTrained (c : Mc) (failch : BitVec 8) (dur : Nat) : Mc :=
  { c with stat := setFld (setFld c.stat 55 48 failch.toNat) 47 32 (min 0xFFFF dur) }
/-- MC_TRAINING_START (R287): a released controller starts training. -/
def execMcTrainingStart (m : McId) (s : State) : Out :=
  let c := mcOf s m
  .next (if mcState c = 0 ∧ bitOf c.cfg 32 = true ∧ wideActive s.rst = false ∧
      s.rst.narrow.contains (1, 2, m.val) = false then ctrlVote (mcPut s m (mcSet c 1)) m else s)
/-- MC_TRAINING_DONE (R287): READY, or FAILED with the channels that failed. -/
def execMcTrainingDone (m : McId) (failch : BitVec 8) (dur : Nat) (s : State) : Out :=
  let c := mcOf s m
  if mcState c ≠ 1 then .next s
  else
    let s1 := mcPut s m (mcTrained c failch dur)
    .next (if failch = 0 then mcReady s1 m else mcFail s1 m)
/-- MC_RETRAIN (R288, R297). -/
def execMcRetrain (m : McId) (s : State) : Out := .next (mcCtlWrite s m ((mcOf s m).ctl ||| 1))
/-- MC_RETRAIN_DONE (R287, R288): READY, what was held is served; or FAILED with the channels that failed. -/
def execMcRetrainDone (m : McId) (failch : BitVec 8) (dur : Nat) (s : State) : Out :=
  let c := mcOf s m
  if mcState c ≠ 6 then .next s
  else
    let s1 := mcPut s m (mcTrained c failch dur)
    .next (if failch = 0 then mcReady s1 m else mcFail s1 m)

/-- The oldest command leaves the retry buffer and the next that waits is issued; a replay whose commands are all confirmed
succeeds (R289). -/
def mcConfirm (c : Mc) : Mc :=
  match c.retry with
  | [] => c
  | _ :: t =>
    let c1 := mcIssue { c with retry := t } []
    if c.replay = 0 then c1
    else if c.replay = 1 then { c1 with replay := 0, fails := 0 }
    else { c1 with replay := c.replay - 1 }
/-- COMMAND_CONFIRM (R289). -/
def execCommandConfirm (m : McId) (s : State) : Out := .next (mcPut s m (mcConfirm (mcOf s m)))

/-- PARITY_ALERT (R289, R290, R299): counted in every state that issues commands; in service and in a quick retrain a replay of every
unconfirmed command begins, or the one under way fails, the third in a row starting recovery. With nothing unconfirmed
there is nothing to replay. In training and recovery an alert is only counted. -/
def execParityAlert (m : McId) (s : State) : Out :=
  let c := mcOf s m
  let c1 := { c with err := satFld c.err 31 24 1 }
  if mcState c = 1 ∨ mcState c = 3 then .next (mcPut s m c1)
  else if mcState c ≠ 2 ∧ mcState c ≠ 6 then .next s
  else if c.replay = 0 then .next (mcPut s m { c1 with replay := c.retry.length })
  else if c.fails = 2 then
    let c2 := { c1 with replay := 0, fails := 0, err := setBit (satFld c1.err 23 20 1) 16 true }
    .next (faultLog (mcPut s m (mcSet c2 3)) 0x07 m 0)
  else .next (mcPut s m { c1 with replay := c.retry.length, fails := c.fails + 1 })
/-- MC_RECOVERY_DONE (R290): the quick retrain's outcome and whether the replay met no alert: READY with everything replayed, or
FAILED. -/
def execMcRecoveryDone (m : McId) (failch : BitVec 8) (ok : Bool) (dur : Nat) (s : State) : Out :=
  let c := mcOf s m
  if mcState c ≠ 3 then .next s
  else
    let c1 := mcTrained c failch dur
    .next (if failch = 0 ∧ ok = true then mcReady (mcPut s m (mcIssue { c1 with retry := [] } [])) m else mcFail (mcPut s m c1) m)
/-- PATROL_SCRUB (R292): the next group is read. -/
def execPatrolScrub (m : McId) (errs : List LineErrs) (s : State) : Out :=
  .next (if fld (mcOf s m).ctl 39 24 = 0 then s else guardEvent s m (fun x => x.patrol errs))
/-- MC_ERR_CLEAR (R299). -/
def execMcErrClear (m : McId) (s : State) : Out := .next (mcPut s m (mcErrWrite (mcOf s m) 0x20000))

/-! ### Commands of the guards -/

/-- GUARD_INIT (R301, R304): at the first READY after a cold start the guard, its key loaded, writes its region. -/
def execGuardInit (m : McId) (s : State) : Out :=
  let g := grdOf s m
  match s.sec.memKey with
  | none => .next s
  | some k => .next (if gState g = 0 ∧ mcState (mcOf s m) = 2 then grdPut s m (grdSet { g with key := some k } 1) else s)
/-- GUARD_INIT_DONE (R304): every counter is 0 and every minor 127; the guard is READY and what was held is served. -/
def execGuardInitDone (m : McId) (s : State) : Out :=
  let g := grdOf s m
  if gState g = 1 then
    let s1 := grdPut s m (grdSet { g with
      root := [], nodes := [], majors := [], minors := [], rebuilt := [], rebuilding := [], dead := []
      exhausted := [], reenc := [], cache := [], lines := [], metas := [], finds := [], loose := [] } 2)
    .next (mcServeHeld s1 m)
  else .next s
/-- METADATA_ARRIVE (R316, R317, R319). -/
def execMetadataArrive (m : McId) (j : Nat) (errs : LineErrs) (s : State) : Out :=
  .next (guardEvent s m (fun x => x.metaArrive j errs))
/-- DATA_LINE_ARRIVE (R317). -/
def execDataLineArrive (m : McId) (n : Nat) (errs : LineErrs) (s : State) : Out :=
  .next (guardEvent s m (fun x => x.dataArrive n errs))
/-- REENCRYPT_DONE (R313). -/
def execReencryptDone (m : McId) (errs : List (Nat × LineErrs)) (s : State) : Out :=
  .next (guardEvent s m (fun x => x.reencrypted errs))
/-- CACHE_WRITE_BACK (R314, R315): with more than DIRTY_MAX × 64 lines dirty, the oldest is written back. -/
def execCacheWriteBack (m : McId) (s : State) : Out :=
  let g := grdOf s m
  match oldestDirty g with
  | none => .next s
  | some j =>
    if min 0x80 (fld g.ctl 39 32) * 64 < dirtyCount g then
      .next (gsKeep s ((gsOf s m).metaWriteBack j).syncDirty)
    else .next s
/-- REBUILD_WRITE (R319). -/
def execRebuildWrite (m : McId) (s : State) : Out := .next (guardEvent s m GS.rebuildStep)
/-- REBUILD_DONE (R319). -/
def execRebuildDone (m : McId) (s : State) : Out := .next (guardEvent s m GS.rebuildEnd)
/-- UERATE_REARM (R318). -/
def execUerateRearm (m : McId) (s : State) : Out :=
  let g := grdOf s m
  let ts := g.ueTimes.filter (fun t => decide (s.now < t + 1000000))
  .next (if ts.length ≤ max 1 (fld g.ctl 47 40) then grdPut s m { g with ueTimes := ts, ueArmed := true } else s)
/-- WINDOW_WRITE (R324, R334, R335). -/
def execWindowWrite (m : McId) (n : Fin 16) (rights : Bool) (v : Word) (s : State) : Out :=
  .next (grdPut s m (winWrite (grdOf s m) n rights v))
/-- GUARD_ERR_CLEAR (R332). -/
def execGuardErrClear (m : McId) (s : State) : Out := .next (grdPut s m (grdErrWrite (grdOf s m) 0x80))

end Sys2Proof.Machine
end

