-- ==== Sys2Proof/Machine/Stream.lean ====
section
/-! DEFINITION. The configuration stream: its header, records, compression and trailer, the frames a record writes, and
the checks of R380 to R390 and R401 that need no state of the part. -/

namespace Sys2Proof.Machine
open Sys2Proof

/-! ### The header (R379, R380) -/

/-- The 64-byte header as fields. -/
structure SHdr where
  magic : Nat
  ver : Nat
  kind : Nat
  flags : Nat
  keysrc : Nat
  panels : Nat
  devid : Nat
  bodylen : Nat
  rsvd : Nat
  deriving DecidableEq, Repr

def hdrOf (bs : List Byte) : SHdr :=
  let at_ := fun (o n : Nat) => leNat ((bs.drop o).take n)
  { magic := at_ 0 4, ver := at_ 4 1, kind := at_ 5 1, flags := at_ 6 1, keysrc := at_ 7 1, panels := at_ 8 4
    devid := at_ 12 4, bodylen := at_ 16 8, rsvd := at_ 36 28 }

def SHdr.enc (h : SHdr) : Bool := nbit h.flags 0
def SHdr.signed (h : SHdr) : Bool := nbit h.flags 1
def SHdr.comp (h : SHdr) : Bool := nbit h.flags 2
/-- The stream's length S (R379). -/
def SHdr.total (h : SHdr) : Nat := 64 + h.bodylen + (if h.signed then 208 else 0)

/-- The values R380 lists: MAGIC is the bytes 56 58 39 43. -/
def SHdr.ok (h : SHdr) : Bool :=
  h.magic == 0x43395856 && h.ver == 1 && decide (1 ≤ h.kind) && decide (h.kind ≤ 3) && decide (h.flags < 8) &&
  (!h.enc || decide (h.keysrc ≤ 1)) && h.devid == 0x0D094F00 && h.bodylen % 8 == 0 && h.rsvd == 0

/-! ### Records (R384 to R387) -/

/-- One record: its header fields and data words. -/
structure SRec where
  rtype : Nat
  panel : Nat
  col : Nat
  row : Nat
  count : Nat
  len : Nat
  data : List Word
  deriving DecidableEq, Repr

/-- The first record of a sequence of words and the rest; none where it runs past the end. -/
def recHead (ws : List Word) : Option (SRec × List Word) :=
  match ws with
  | [] => none
  | h :: t =>
    let n := fld h 31 0
    if t.length < n then none
    else some ({ rtype := fld h 63 60, panel := fld h 59 55, col := fld h 54 47, row := fld h 46 43
                 count := fld h 42 32, len := n, data := t.take n }, t.drop n)

/-- Tokens expanded (R386). -/
def expandTok : Nat → List Word → Option (List Word)
  | _, [] => some []
  | 0, _ :: _ => none
  | fuel + 1, t :: r =>
    let k := fld t 63 62
    let n := fld t 31 0
    if fld t 61 32 ≠ 0 ∨ n = 0 then none
    else if k = 0 then
      if r.length < n then none else (expandTok fuel (r.drop n)).map (fun e => r.take n ++ e)
    else if k = 1 then
      match r with
      | [] => none
      | w :: r' => (expandTok fuel r').map (fun e => List.replicate n w ++ e)
    else if k = 2 then (expandTok fuel r).map (fun e => List.replicate n 0 ++ e)
    else none

def expand (comp : Bool) (ws : List Word) : Option (List Word) := if comp then expandTok ws.length ws else some ws

/-- A frame address: panel, COL, ROW. -/
structure FAddr where
  p : Nat
  col : Nat
  row : Nat
  deriving DecidableEq, Repr

def FAddr.ok (a : FAddr) : Bool := decide (a.p < 32) && ((decide (a.col < 144) && decide (a.row < 16)) ||
  (decide (144 ≤ a.col) && decide (a.col ≤ 160) && a.row == 0))
/-- The next address, ROW first, then COL, then the next panel (R385). -/
def FAddr.next (a : FAddr) : FAddr :=
  if a.col < 144 then (if a.row = 15 then { a with col := a.col + 1, row := 0 } else { a with row := a.row + 1 })
  else if a.col < 160 then { a with col := a.col + 1, row := 0 }
  else { p := a.p + 1, col := 0, row := 0 }
def FAddr.key (a : FAddr) : Nat := frameKey a.p a.col a.row

/-- The frames of a FRAME record: address and words. -/
def recFrames : Nat → FAddr → List Word → List (FAddr × List Word)
  | 0, _, _ => []
  | n + 1, a, ws => (a, ws.take 368) :: recFrames n a.next (ws.drop 368)

def SRec.frames (r : SRec) (comp : Bool) : Option (List (FAddr × List Word)) :=
  match expand comp r.data with
  | none => none
  | some ws => if ws.length = 368 * r.count then some (recFrames r.count { p := r.panel, col := r.col, row := r.row } ws)
               else none

/-- The bank or engine memory of a MEM record and its extent (R385): first byte address, bytes. -/
def SRec.mem (r : SRec) (comp : Bool) : Option (Nat × List Word) :=
  match r.data with
  | [] => none
  | a :: t => (expand comp t).map (fun ws => (a.toNat, ws))

/-- A MEM target that stays inside one bank, or inside one engine's data and program memory (R385); its contents may be
empty. -/
def memOk (a n : Nat) : Bool :=
  let m := max n 1
  a % 8 == 0 &&
  ((decide (0x10000000000 ≤ a) && decide (a + m ≤ 0x1000C000000) && (a / 0x10000 == (a + m - 1) / 0x10000)) ||
   (decide (0x11000000000 ≤ a) && decide (a + m ≤ 0x11007800000) && (a / 0x8000 == (a + m - 1) / 0x8000) &&
    decide ((a + m - 1) % 0x8000 < 0x6000)))

/-- The fields a type does not name are 0, and LEN is as the type needs (R385). -/
def SRec.shape (r : SRec) : Bool :=
  let noAddr := r.panel == 0 && r.col == 0 && r.row == 0
  match r.rtype with
  | 1 => decide (1 ≤ r.count)
  | 3 => noAddr && r.count == 0 && r.len % 2 == 0
  | 4 => noAddr && r.count == 0 && decide (1 ≤ r.len)
  | 5 => noAddr && decide (r.count < 16) && r.len == 4
  | 6 => noAddr && r.count == 0
  | 14 => noAddr && r.count == 0 && r.len == 1
  | 15 => noAddr && r.count == 0 && r.len == 0
  | _ => false

/-- All records of a body up to END, which nothing follows. -/
def recAll : Nat → List Word → Option (List SRec)
  | 0, _ => none
  | fuel + 1, ws =>
    match recHead ws with
    | none => none
    | some (r, rest) =>
      if r.shape = false then none
      else if r.rtype = 15 then (if rest.isEmpty then some [r] else none)
      else (recAll fuel rest).map (fun t => r :: t)

/-- A trailer (R401): reserved bits zero, each step once, no wait code 3. -/
def trailerOk (w : Word) : Bool :=
  let slot := fun i => fld w (8 * i + 7) (8 * i)
  fld w 63 48 == 0 && (List.range 4).all (fun i => slot i % 8 == 0 && slot i / 16 % 4 != 3) &&
  (List.range 4).all (fun c => (List.range 4).any (fun i => slot i / 64 == c))

/-- The pairs of the REG records of a stream, in order. -/
def pairs : List Word → List (Word × Word)
  | a :: b :: t => (a, b) :: pairs t
  | _ => []
def regPairs (rs : List SRec) : List (Word × Word) := (rs.filter (fun r => r.rtype == 3)).flatMap (fun r => pairs r.data)

/-- The FORMAT checks over a record sequence (R385 to R387, R401). -/
def formatOk (panels : Nat) (comp : Bool) (rs : List SRec) : Bool :=
  let tr := rs.filter (fun r => r.rtype == 14)
  let fs := rs.flatMap (fun r => if r.rtype = 1 then (r.frames comp).getD [] else [])
  tr.length == 1 && (rs.dropLast.getLast?.map (·.rtype)) == some 14 && tr.all (fun r => trailerOk (r.data.headD 0)) &&
  rs.all (fun r => r.rtype != 1 || (r.frames comp).isSome) &&
  rs.all (fun r => r.rtype != 4 || (match r.mem comp with
    | none => false
    | some (a, ws) => memOk a (8 * ws.length))) &&
  fs.all (fun f => f.1.ok && nbit panels f.1.p) && ((fs.map (fun f => f.1.key)).eraseDups.length == fs.length)

/-! ### Frames (R48, R53, R62, R87, R91, R388) -/

def encOk (m v : Nat) : Bool := decide (v < m) || v == 31

def wordOp (op : Nat) : Bool :=
  [0x00, 0x01, 0x02, 0x04, 0x05, 0x06, 0x07, 0x08, 0x09, 0x10, 0x11, 0x12, 0x13, 0x14, 0x15, 0x16, 0x17, 0x18, 0x19,
   0x1A, 0x1B, 0x20, 0x21, 0x22, 0x23, 0x24, 0x25].contains op

/-- A slot of a word-mode cell (R53). -/
def slotOk (sl : Nat) : Bool :=
  let op := nfld sl 47 42
  wordOp op && (op == 0 || (decide (nfld sl 27 24 ≤ 8) && !(op == 0x19 && nbit sl 35)))

/-- A cell control word (R48). -/
def ctlOk (c : Nat) : Bool :=
  c / 2 ^ 16 == 0 && !nbit c 11 && nfld c 9 8 != 3 && !nbit c 7 && nfld c 2 1 != 3 &&
  (nfld c 2 1 == 2 || !nbit c 6) && (nfld c 2 1 != 2 || nfld c 5 3 == 0) &&
  (!nbit c 0 || (nfld c 2 1 == 0 && nfld c 5 3 == 0 && !nbit c 6))

/-- The 23 words of a cell. -/
def cellOk (col k : Nat) (ws : List Word) : Bool :=
  let v := (List.range 6).foldl (fun a i => a + (ws.getD i 0).toNat <<< (64 * i)) 0
  let c := (ws.getD 6 0).toNat
  let s := (ws.getD 7 0).toNat
  ctlOk c && s / 2 ^ 60 == 0 && (List.range 4).all (fun i => encOk 24 (nfld s (5 * i + 4) (5 * i))) &&
  (List.range 8).all (fun i => encOk 28 (nfld s (24 + 5 * i) (20 + 5 * i))) &&
  (if nbit c 0 then (List.range 8).all (fun j => !nbit v (256 + 8 * (2 * j + 1) + 7))
   else (List.range 8).all (fun i => slotOk (nfld v (48 * i + 47) (48 * i)))) &&
  (List.range 15).all (fun i => !Config.routeIllegal col (23 * k + 8 + i) (ws.getD (8 + i) 0))

/-- A regional clock's configuration word (R91, R92). -/
def clockOk (w : Word) : Bool :=
  fld w 63 56 == 0 && decide (fld w 47 46 ≤ 1) && decide (fld w 45 44 ≤ 1) && fld w 43 42 != 3 &&
  !(bitOf w 55 && bitOf w 40) && (!bitOf w 40 || fld w 39 35 == 0) && fld w 19 0 == 0

/-- The tap words of a clock frame (R388). -/
def tapsOk (ws : List Word) : Bool :=
  (List.range 6).all (fun i =>
    let w := (ws.getD (16 + i) 0).toNat
    w / 2 ^ (if i = 5 then 20 else 60) == 0 &&
    (List.range (if i = 5 then 4 else 12)).all (fun j => encOk 28 (nfld w (5 * j + 4) (5 * j)))) &&
  (ws.getD 22 0).toNat / 32 == 0 && encOk 28 (ws.getD 22 0).toNat && (ws.drop 23).all (· == 0)

def portOk (col j : Nat) (ws : List Word) : Bool :=
  (ws.getD 0 0 &&& ~~~ (fldMask 12 4 ||| fldMask 1 0)) == 0 &&
  (List.range 22).all (fun i => !Config.routeIllegal col (23 * j + 1 + i) (ws.getD (1 + i) 0))

def bnkCfgMask : Word := fldMask 36 32 ||| fldMask 9 8 ||| fldMask 0 0
def bnkOwnMask : Word := fldMask 49 16
def engCtlMask : Word := fldMask 25 16 ||| fldMask 2 2 ||| fldMask 0 0
def nocC0Mask : Word := fldMask 63 32
def nocQosMask : Word := fldMask 23 0
def nocPortenMask : Word := fldMask 15 0
def within (w m : Word) : Bool := (w &&& ~~~ m) == 0

/-- A tile's images (R388): the engine groups in slots 7 and 8 are those R80 attaches to the tile's router. -/
def tileOk (t : Nat) (ws : List Word) : Bool :=
  within (ws.getD 0 0) nocC0Mask && within (ws.getD 1 0) nocQosMask && within (ws.getD 2 0) nocPortenMask &&
  (List.range 8).all (fun i => let w := ws.getD (3 + i) 0; within w bnkCfgMask && decide (fld w 36 32 ≤ 16)) &&
  (List.range 8).all (fun i => let w := ws.getD (11 + i) 0; within w bnkOwnMask && ownerLegal (ownerOf w)) &&
  (List.range 16).all (fun i =>
    let w := ws.getD (19 + i) 0
    within w engCtlMask && (decide (i < 8) || t / 3 == 0 || w == 0)) &&
  (ws.drop 35).all (· == 0)

/-- A frame that breaks none of the rules R388 names. -/
def frameOk (a : FAddr) (ws : List Word) : Bool :=
  if a.col < 144 then (List.range 16).all (fun k => cellOk a.col k ((ws.drop (23 * k)).take 23))
  else if a.col = 144 then (ws.take 16).all clockOk && tapsOk ws
  else if a.col < 149 then (List.range 16).all (fun j => portOk a.col j ((ws.drop (23 * j)).take 23))
  else tileOk (a.col - 149) ws

end Sys2Proof.Machine
end

