-- ==== Sys2Proof/Machine/RegMap.lean ====
section
/-! DEFINITION. The map of the device registers (R26, R180, R218, R257, R293, R330, R368, R407, R436, R441, R505, R545,
R567, R598) and the bits of each that a stream may set. -/

namespace Sys2Proof.Machine
open Sys2Proof

/-- The registers of the device. -/
inductive RegKind where
  | rstCmd | rstCause | rstState
  | clkRef | clkOut | clkForce | clkStall | pllCfg | pllOdiv | pllStat
  | voteSet | voteClr | pwrWake | pwrAvs | pwrOpp | pwrDom
  | cfgCtl | cfgStat | cfgProg | cfgBaste | pnlRec | pnlCtl | pnlStat
  | secState | almCfg | almStat | secBbr | secKeyin | fusCtl | fusData | fusStat
  | dbgCtl | dbgXtch | dbgTrc | dbgXtp | dbgEctl | dbgIbp | dbgDbp | dbgXt | dbgTx | dbgRx
  | drnCtl | drnStat | drnErr | drnLog
  | nocC0 | nocQos | nocPorten | nocChg | nocHold | nocLink | stCfg | stLat | stSum | stBytes | stHist
  | mcCfg | mcGcfg | mcGsel | mcMap | mcCtl | mcStat | mcErr | mcErraddr
  | grdCtl | grdStat | grdErr | grdErraddr | grdRange | grdRights
  | lnCfg | lnCtl | lnRclk | lnStat | lnErr | dqTx | dqRx | dqCtl
  | bnkCfg | bnkOwn | bnkPwr | bnkErr | bnkRemap | bnkScrub | bnkBist | bnkRepair
  | engCtl | engStat | engWdt | engInt
  deriving DecidableEq, Repr

/-- A register: which, of what unit, and its own index there. -/
structure Reg where
  kind : RegKind
  u : Nat := 0
  k : Nat := 0
  deriving DecidableEq, Repr

def regHub (o : Nat) : Option Reg :=
  if o % 8 ≠ 0 then none
  else if o = 0 then some { kind := .rstCmd }
  else if o = 8 then some { kind := .rstCause }
  else if o = 0x10 then some { kind := .rstState }
  else if o < 0x800 then none
  else if o = 0x800 then some { kind := .clkRef }
  else if o = 0x808 ∨ o = 0x810 then some { kind := .clkOut, u := (o - 0x808) / 8 }
  else if o = 0x818 then some { kind := .clkForce }
  else if o < 0x860 then some { kind := .clkStall, u := (o - 0x820) / 8 }
  else if o < 0x1000 then none
  else if o < 0x2000 then
    let d := (o - 0x1000) / 0x400
    let i := o % 0x400 / 0x20
    if 10 ≤ i then none
    else match o % 0x20 with
      | 0 => some { kind := .pllCfg, u := 10 * d + i }
      | 8 => some { kind := .pllOdiv, u := 10 * d + i }
      | 16 => some { kind := .pllStat, u := 10 * d + i }
      | _ => none
  else if o = 0x2000 then some { kind := .voteSet }
  else if o = 0x2008 then some { kind := .voteClr }
  else if o = 0x2010 then some { kind := .pwrWake }
  else if o = 0x2018 then some { kind := .pwrAvs }
  else if o < 0x2040 then some { kind := .pwrOpp, u := (o - 0x2020) / 8 }
  else if 0x100000 ≤ o ∧ domValid ((o - 0x100000) / 8) = true then some { kind := .pwrDom, u := (o - 0x100000) / 8 }
  else none

def regCfg (o : Nat) : Option Reg :=
  if o % 8 ≠ 0 then none
  else if o = 0 then some { kind := .cfgCtl }
  else if o = 8 then some { kind := .cfgStat }
  else if o = 0x10 then some { kind := .cfgProg }
  else if o = 0x18 then some { kind := .cfgBaste }
  else if o = 0x1000 then some { kind := .pnlRec }
  else if 0x1100 ≤ o ∧ o < 0x1300 then
    some { kind := if o % 16 = 0 then .pnlCtl else .pnlStat, u := (o - 0x1100) / 16 }
  else none

def regSec (o : Nat) : Option Reg :=
  match o with
  | 0x00 => some { kind := .secState }
  | 0x08 => some { kind := .almCfg }
  | 0x10 => some { kind := .almStat }
  | 0x20 => some { kind := .secBbr }
  | 0x40 => some { kind := .secKeyin, k := 0 }
  | 0x48 => some { kind := .secKeyin, k := 1 }
  | 0x50 => some { kind := .secKeyin, k := 2 }
  | 0x58 => some { kind := .secKeyin, k := 3 }
  | 0x100 => some { kind := .fusCtl }
  | 0x108 => some { kind := .fusData }
  | 0x110 => some { kind := .fusStat }
  | _ => none

def regDbg (o : Nat) : Option Reg :=
  if o % 8 ≠ 0 then none
  else if o = 0 then some { kind := .dbgCtl }
  else if o = 8 then some { kind := .dbgXtch }
  else if 0x100 ≤ o ∧ o < 0x120 then some { kind := .dbgTrc, u := (o - 0x100) / 8 }
  else if 0x800 ≤ o ∧ o < 0x900 then some { kind := .dbgXtp, u := (o - 0x800) / 8 }
  else if 0x100000 ≤ o ∧ o < 0x1F0000 then
    let e := (o - 0x100000) / 0x100
    match o % 0x100 / 8 with
    | 0 => some { kind := .dbgEctl, u := e }
    | 1 => some { kind := .dbgIbp, u := e, k := 0 }
    | 2 => some { kind := .dbgIbp, u := e, k := 1 }
    | 3 => some { kind := .dbgIbp, u := e, k := 2 }
    | 4 => some { kind := .dbgIbp, u := e, k := 3 }
    | 5 => some { kind := .dbgDbp, u := e, k := 0 }
    | 6 => some { kind := .dbgDbp, u := e, k := 1 }
    | 7 => some { kind := .dbgXt, u := e }
    | 8 => some { kind := .dbgTx, u := e }
    | 9 => some { kind := .dbgRx, u := e }
    | _ => none
  else none

def regDrn (d o : Nat) : Option Reg :=
  match o with
  | 0x00 => some { kind := .drnCtl, u := d }
  | 0x08 => some { kind := .drnStat, u := d }
  | 0x10 => some { kind := .drnErr, u := d }
  | 0x18 => some { kind := .drnLog, u := d }
  | _ => none

/-- The initiators a router keeps statistics of: its slots 0 to 15 (R256). -/
def regNoc (r o : Nat) : Option Reg :=
  match o with
  | 0x00 => some { kind := .nocC0, u := r }
  | 0x08 => some { kind := .nocQos, u := r }
  | 0x10 => some { kind := .nocPorten, u := r }
  | 0x18 => some { kind := .nocChg, u := r }
  | 0x20 => some { kind := .nocHold, u := r }
  | 0x28 => some { kind := .nocLink, u := r }
  | _ =>
    if o % 8 ≠ 0 ∨ o < 0x1000 ∨ 0x2000 ≤ o then none
    else
      let k := (o - 0x1000) / 0x80
      match o % 0x80 / 8 with
      | 0 => some { kind := .stCfg, u := r, k := k }
      | 1 => some { kind := .stLat, u := r, k := k }
      | 2 => some { kind := .stSum, u := r, k := k }
      | 3 => some { kind := .stBytes, u := r, k := k }
      | n => if n < 8 then none else some { kind := .stHist, u := r, k := 8 * k + (n - 8) }

def regMc (m o : Nat) : Option Reg :=
  if o % 8 ≠ 0 then none
  else match o with
  | 0x00 => some { kind := .mcCfg, u := m }
  | 0x08 => some { kind := .mcGcfg, u := m }
  | 0x80 => some { kind := .mcCtl, u := m }
  | 0x88 => some { kind := .mcStat, u := m }
  | 0x90 => some { kind := .mcErr, u := m }
  | 0x98 => some { kind := .mcErraddr, u := m }
  | 0x100000 => some { kind := .grdCtl, u := m }
  | 0x100008 => some { kind := .grdStat, u := m }
  | 0x100010 => some { kind := .grdErr, u := m }
  | 0x100018 => some { kind := .grdErraddr, u := m }
  | _ =>
    if 0x10 ≤ o ∧ o < 0x28 then some { kind := .mcGsel, u := m, k := (o - 0x10) / 8 }
    else if 0x40 ≤ o ∧ o < 0x78 then some { kind := .mcMap, u := m, k := (o - 0x40) / 8 }
    else if 0x100100 ≤ o ∧ o < 0x100200 then
      some { kind := if o % 16 = 0 then .grdRange else .grdRights, u := m, k := (o - 0x100100) / 16 }
    else none

def regLn (q o : Nat) : Option Reg :=
  if o % 8 ≠ 0 then none
  else if o < 0x20 then some { kind := .lnCfg, u := 4 * q + o / 8 }
  else if o = 0x20 then some { kind := .lnCtl, u := q }
  else if o = 0x28 then some { kind := .lnRclk, u := q }
  else if 0x40 ≤ o ∧ o < 0x60 then some { kind := .lnStat, u := 4 * q + (o - 0x40) / 8 }
  else if 0x60 ≤ o ∧ o < 0x80 then some { kind := .lnErr, u := 4 * q + (o - 0x60) / 8 }
  else if 0x100 ≤ o ∧ o < 0x180 then
    let l := 4 * q + (o - 0x100) / 0x20
    match o % 0x20 with
    | 0 => some { kind := .dqTx, u := l }
    | 8 => some { kind := .dqRx, u := l }
    | 16 => some { kind := .dqCtl, u := l }
    | _ => none
  else none

def regBnk (n o : Nat) : Option Reg :=
  match o with
  | 0x00 => some { kind := .bnkCfg, u := n }
  | 0x08 => some { kind := .bnkOwn, u := n }
  | 0x10 => some { kind := .bnkPwr, u := n }
  | 0x18 => some { kind := .bnkErr, u := n }
  | 0x20 => some { kind := .bnkRemap, u := n, k := 0 }
  | 0x28 => some { kind := .bnkRemap, u := n, k := 1 }
  | 0x30 => some { kind := .bnkRemap, u := n, k := 2 }
  | 0x38 => some { kind := .bnkRemap, u := n, k := 3 }
  | 0x40 => some { kind := .bnkScrub, u := n }
  | 0x48 => some { kind := .bnkBist, u := n }
  | 0x50 => some { kind := .bnkRepair, u := n }
  | _ => none

def regEng (e o : Nat) : Option Reg :=
  match o with
  | 0x00 => some { kind := .engCtl, u := e }
  | 0x08 => some { kind := .engStat, u := e }
  | 0x10 => some { kind := .engWdt, u := e }
  | 0x18 => some { kind := .engInt, u := e }
  | _ => none

/-- The register at an offset from 0x01F0_0000_0000; none where no register lies (R26, R27). -/
def regAt (o : Nat) : Option Reg :=
  if o < 0x1000000 then regHub o
  else if o < 0x2000000 then regCfg (o - 0x1000000)
  else if o < 0x3000000 then regSec (o - 0x2000000)
  else if o < 0x4000000 then regDbg (o - 0x3000000)
  else if o < 0x10000000 then
    (if o < 0x4400000 then regDrn ((o - 0x4000000) / 0x100000) (o % 0x100000) else none)
  else if o < 0x20000000 then
    (if o < 0x11900000 then regNoc ((o - 0x10000000) / 0x10000) (o % 0x10000) else none)
  else if o < 0x30000000 then
    (if o < 0x28000000 then regMc ((o - 0x20000000) / 0x1000000) (o % 0x1000000) else none)
  else if o < 0x40000000 then
    (if o < 0x32000000 then regLn ((o - 0x30000000) / 0x100000) (o % 0x100000) else none)
  else if o < 0x50000000 then
    (if o < 0x40C00000 then regBnk ((o - 0x40000000) / 0x1000) (o % 0x1000) else none)
  else if o < 0x50F00000 then regEng ((o - 0x50000000) / 0x1000) (o % 0x1000)
  else none

/-- The bits of a register that the stream sets; 0 where it sets none (R390). -/
def Reg.streamMask (r : Reg) : Word :=
  match r.kind with
  | .pllCfg => fldMask 63 22
  | .pllOdiv => fldMask 54 48 ||| fldMask 38 32 ||| fldMask 22 16 ||| fldMask 6 0
  | .voteSet => fldMask 42 32 ||| fldMask 15 1
  | .voteClr => fldMask 42 32 ||| fldMask 15 1
  | .pwrAvs => fldMask 63 62 ||| fldMask 47 0
  | .pwrOpp => fldMask 10 8
  | .pwrDom => fldMask 41 40 ||| fldMask 31 16
  | .cfgBaste => fldMask 63 62 ||| fldMask 47 16
  | .pnlRec => fldMask 63 63 ||| fldMask 47 16
  | .pnlCtl => fldMask 1 0
  | .almCfg => fldMask 3 0
  | .nocC0 => nocC0Mask
  | .nocQos => nocQosMask
  | .nocPorten => nocPortenMask
  | .mcCfg => fldMask 47 40 ||| fldMask 35 32
  | .mcGcfg => if r.u = 0 then fldMask 33 32 else 0
  | .mcGsel => if r.u = 0 then fldMask 39 0 else 0
  | .mcMap => fldMask 39 0
  | .mcCtl => fldMask 63 48
  | .grdCtl => fldMask 47 32 ||| fldMask 0 0
  | .grdRange => fldMask 63 0
  | .grdRights => fldMask 63 32 ||| (fldMask 27 0 &&& ~~~ (0x4 ||| 0x40 ||| 0x400 ||| 0x4000 ||| 0x4000000))
  | .lnCfg => fldMask 63 24 ||| fldMask 22 18
  | .bnkCfg => bnkCfgMask
  | .bnkOwn => bnkOwnMask
  | .engCtl => engCtlMask
  | _ => 0

/-- The registers a STARTER stream may set: clocks and PLLs, controllers and guards, CFG_BASTE, and LN_CFG of Q0 to Q7
(R403). -/
def Reg.starterOk (r : Reg) : Bool :=
  match r.kind with
  | .pllCfg => true
  | .pllOdiv => true
  | .cfgBaste => true
  | .mcCfg => true
  | .mcGcfg => true
  | .mcGsel => true
  | .mcMap => true
  | .mcCtl => true
  | .grdCtl => true
  | .grdRange => true
  | .grdRights => true
  | .lnCfg => decide (r.u < 32)
  | _ => false

end Sys2Proof.Machine
end

