-- ==== Sys2Proof/Machine/LegacyCore.lean ====
section
/-! DEFINITION. MK2140 streams: their blocks and frames, the checks of R457 to R460, and the trailer the translator
builds (R446 to R463). -/

namespace Sys2Proof.Machine
open Sys2Proof

/-- One step of the CRC-16 of R458 over a byte, most significant bit first. -/
def crc16Byte (c : Nat) (b : Byte) : Nat :=
  (List.range 8).foldl (fun x i =>
    let top := (x / 32768 + (if b.getLsbD (7 - i) then 1 else 0)) % 2
    let y := x * 2 % 65536
    if top = 1 then y ^^^ 0x8005 else y) c
def crc16 (bs : List Byte) : Nat := bs.foldl crc16Byte 0

/-- The frame addresses the MK2140 defined (R458). -/
def lgAddrOk (a : Nat) : Bool := decide (a ≤ 0x0BFF) || decide (0x2000 ≤ a ∧ a ≤ 0x487F) || decide (0x6000 ≤ a ∧ a ≤ 0x60FF)

/-- The REASON codes of R460. -/
def lgBLOCK : Nat := 1
def lgCRC : Nat := 2
def lgIDMATCH : Nat := 3
def lgNOKEY : Nat := 4
def lgCONTEND : Nat := 5
def lgMEMFIT : Nat := 6
def lgCLOCKS : Nat := 7
def lgIOSTD : Nat := 8
def lgPOLICY : Nat := 9
def lgUPSET : Nat := 10
def lgSIZE : Nat := 11

/-- The ERR a reason gives (R460); 0 where it has none. -/
def lgErr (reason : Nat) : Nat :=
  match reason with
  | 1 => 0x0B
  | 9 => 0x02
  | 10 => 0
  | 11 => 0x04
  | _ => 0x0C

def lgOpt (l : Legacy) : Nat := l.opts.getD 0
def lgEnc (l : Legacy) : Bool := nbit (lgOpt l) 12
def lgAnyFrames (l : Legacy) : Bool := !l.frames.isEmpty

/-- The two IDCODEs of the MK2140, and which the DEVICE block must equal (R465): 0 either, 1 MK2140-C, 2 MK2140-D. -/
def lgIdOk (answer id : Nat) : Bool :=
  (answer != 2 && id == 0x32140C0D) || (answer != 1 && id == 0x42140C0D)

/-- ORDER names each step once, and bits 31:13 are 0 (R457). -/
def lgOptOk (o : Nat) : Bool :=
  o / 2 ^ 13 == 0 && (List.range 4).all (fun c => (List.range 4).any (fun i => nfld o (5 + 2 * i) (4 + 2 * i) == c))

/-- The frames of a FRAMES payload's plaintext, 258 bytes each, checked one by one (R458): a reason, or 0. -/
def lgTake : Nat → Nat → List Byte → Legacy → Nat × Legacy
  | 0, _, _, l => (0, l)
  | n + 1, a, bs, l =>
    let d := bs.take 256
    if lgAddrOk a = false ∨ (tget [] l.frames a).isEmpty = false then (lgBLOCK, l)
    else if beNat ((bs.drop 256).take 2) ≠ crc16 d then (lgCRC, l)
    else lgTake n (a + 1) (bs.drop 258) { l with frames := tset [] l.frames a d }

/-- One block (R457 to R459, R465): a reason, or 0. `slot` is the key of BBRAM slot LK, where it is present. -/
def lgBlock (answer : Nat) (slot : Option (BitVec 128)) (tag : Nat) (bs : List Byte) (l : Legacy) : Nat × Legacy :=
  let l := { l with bytes := l.bytes + 3 + bs.length }
  if 8388608 < l.bytes then (lgSIZE, l)
  else if l.finished then (0, l)
  else match tag with
  | 0x01 =>
    if bs.length ≠ 4 ∨ lgAnyFrames l = true then (lgBLOCK, l)
    else if lgIdOk answer (beNat bs) = false then (lgIDMATCH, l)
    else (0, { l with device := true })
  | 0x02 =>
    let o := beNat bs
    if bs.length ≠ 4 ∨ lgAnyFrames l = true ∨ lgOptOk o = false then (lgBLOCK, l)
    else if nbit o 12 = true ∧ slot.isNone = true then (lgNOKEY, l)
    else (0, { l with opts := some o, ck := o % 8 })
  | 0x03 =>
    if bs.length ≠ 16 ∨ lgAnyFrames l = true then (lgBLOCK, l)
    else (0, { l with iv := true, chain := bs })
  | 0x04 =>
    if l.device = false ∨ l.opts.isNone = true ∨ (lgEnc l = true ∧ l.iv = false) ∨ bs.length < 2 then (lgBLOCK, l)
    else
      let a := beNat (bs.take 2)
      let c := bs.drop 2
      if lgEnc l then
        if c.length % 16 ≠ 0 then (lgBLOCK, l)
        else
          let n := c.length / 258
          if c.length ≠ (258 * n + 15) / 16 * 16 then (lgBLOCK, l)
          else
            let p := cbcOpen (slot.getD 0) (c.length / 16) l.chain c
            lgTake n a p { l with chain := if c.isEmpty then l.chain else c.drop (c.length - 16) }
      else if c.length % 258 ≠ 0 then (lgBLOCK, l)
      else lgTake (c.length / 258) a c l
  | 0x0F =>
    if bs.isEmpty = true ∧ l.device = true ∧ l.opts.isSome = true then (0, { l with finished := true }) else (lgBLOCK, l)
  | _ => (lgBLOCK, l)

/-- The blocks of a stream held whole (R457, R470). -/
def lgBlocks (answer : Nat) (slot : Option (BitVec 128)) : Nat → List Byte → Legacy → Nat × Legacy
  | 0, _, l => (lgBLOCK, l)
  | fuel + 1, bs, l =>
    if l.finished then (0, l)
    else match bs with
    | t :: hi :: lo :: r =>
      let n := hi.toNat * 256 + lo.toNat
      if r.length < n then (lgBLOCK, l)
      else
        let x := lgBlock answer slot t.toNat (r.take n) l
        if x.1 ≠ 0 then x else lgBlocks answer slot fuel (r.drop n) x.2
    | _ => (lgBLOCK, l)

/-- Pad bytes, then the start marker (R457): what follows it. -/
def lgStart : List Byte → Option (List Byte)
  | [] => none
  | b :: t =>
    if b = 0x00 ∨ b = 0xFF then lgStart t
    else if (b :: t).take 4 = [0xB5, 0x2E, 0x71, 0xC8] then some (t.drop 3) else none

/-- A whole MK2140 stream received anew into a cleared receiver (R457 to R459). -/
def lgStream (answer : Nat) (slot : Option (BitVec 128)) (bs : List Byte) (l : Legacy) : Nat × Legacy :=
  let l0 := { l with
    opts := none, device := false, iv := false, chain := [], finished := false, bytes := 0, frames := [] }
  if 8388608 < bs.length then (lgSIZE, l0)
  else match lgStart bs with
  | none => (lgBLOCK, l0)
  | some r => lgBlocks answer slot r.length r l0

/-! ### What the translator checks (R448 to R456) -/

/-- The clock ratio k of R453 for a domain of f kHz, F being the global clock limit. -/
def lgRatio (F f : Nat) : Nat := min 16 (F / f)
/-- The used ports a domain counts: one on a clock of its own counts as two (R453). -/
def lgPorts (d : Config.LgDomain) : Nat := d.ports + 2 * d.foreign.length
/-- The banks a domain needs (R453). -/
def lgBanks (F : Nat) (d : Config.LgDomain) : Nat :=
  let n := lgRatio F d.khz - 2
  max ((lgPorts d + n - 1) / n) ((d.mems + 15) / 16)
/-- The port envelope of the legacy memories (R453). -/
def lgMemFits (F : Nat) (ds : List Config.LgDomain) : Bool :=
  let ms := ds.filter (fun d => d.mems != 0)
  ms.all (fun d => decide (3 ≤ lgRatio F d.khz) && d.foreign.all (fun g => decide (2 * g ≤ d.khz))) &&
  decide ((ms.map (lgBanks F)).sum ≤ 96)
/-- The regional clocks a domain takes: logic, banks, multipliers (R451). -/
def lgRclks (d : Config.LgDomain) : Nat := 1 + (d.mems != 0).toNat + (d.mults != 0).toNat
/-- The legacy clocks fit, with so many PLL outputs of F0 free (R451). -/
def lgClocksFit (free : Nat) (ds : List Config.LgDomain) : Bool :=
  ds.all (fun d => decide (d.khz ≤ 400000) && d.pll) && decide ((ds.map lgRclks).sum ≤ 16) && decide (ds.length ≤ free)
/-- What the translator finds wrong with a design's needs (R448, R450, R451, R453, R456, R460): CONTEND, MEMFIT, CLOCKS, IOSTD, in that
order (log entry 57). -/
def lgRefusal (F free : Nat) (n : Config.LgNeeds) : Nat :=
  let excess := decide (12288 < n.margin)
  if n.lines.any (fun k => decide (2 ≤ k)) then lgCONTEND
  else if lgMemFits F n.domains = false ∨ (excess = true ∧ n.marginClocks = false) then lgMEMFIT
  else if lgClocksFit free n.domains = false ∨ excess = true then lgCLOCKS
  else if n.clamp then lgIOSTD else 0

/-- The PLL outputs of F0 that no design but the hosted one uses (R451). -/
def lgFreeOutputs (s : State) : Nat :=
  (List.range 32).countP (fun k =>
    let p := pllOf s (k / 4)
    !bitOf p.cfg 63 || fld p.odivSet (16 * (k % 4) + 6) (16 * (k % 4)) == 0 || s.lg.plls.contains (k / 4))
/-- What the translator finds wrong (R460). -/
def lgCheck (s : State) (l : Legacy) : Nat := lgRefusal Config.gclkLimitKhz (lgFreeOutputs s) (Config.legacyNeeds (lgDesign l))

/-- The REG pairs that set the PLLs of a legacy design (R451). -/
def lgPllPairs (d : List (Nat × Byte)) : List (Word × Word) :=
  (Config.legacyPlls d).flatMap (fun e =>
    [(BitVec.ofNat 64 (0x1F000001000 + 0x20 * e.1.val), e.2.1), (BitVec.ofNat 64 (0x1F000001008 + 0x20 * e.1.val), e.2.2)])
/-- The records of a load from the pins: the design, its PLLs, the trailer (R451, R460, R463). -/
def lgBody (l : Legacy) (trailer : Word) : List Word :=
  let ps := lgPllPairs (lgDesign l)
  [mkWord [(63, 60, 6)]] ++ (if ps.isEmpty then [] else mkWord [(63, 60, 3), (31, 0, 2 * ps.length)] :: ps.flatMap (fun p => [p.1, p.2])) ++
    [mkWord [(63, 60, 14), (31, 0, 1)], trailer, mkWord [(63, 60, 15)]]

/-- The trailer the translator builds from OPTIONS (R463): the steps of ORDER; with DONEWAIT, OUT waits for LG_DONE,
which no slot's wait names, so it waits in its own way. -/
def lgTrailer (l : Legacy) : Word :=
  mkWord ((List.range 4).map (fun i => (8 * i + 7, 8 * i + 6, nfld (lgOpt l) (5 + 2 * i) (4 + 2 * i))))

/-- The bytes of a LEGACY record's stream (R470). -/
def legacyBytes (ws : List Word) : List Byte :=
  ((ws.drop 8).flatMap (fun w => leBytes 8 w.toNat)).take (fld (ws.headD 0) 31 0)

/-- A LEGACY record's layout (R470). -/
def legacyShape (ws : List Word) : Bool :=
  let n := fld (ws.headD 0) 31 0
  fld (ws.headD 0) 63 32 == 0 && ws.length == 8 + (n + 7) / 8 && fld (ws.getD 5 0) 63 32 == 0 &&
  (ws.getD 6 0) == 0 && (ws.getD 7 0) == 0 &&
  ((ws.drop 8).flatMap (fun w => leBytes 8 w.toNat)).drop n == List.replicate (8 * ((n + 7) / 8) - n) 0

/-- The key that wraps the BBRAM slots (R554). -/
def kbbr : BitVec 256 :=
  keyOf ((hmac ((List.finRange 4).flatMap (fun i => leBytes 8 (Config.dus i).toNat)) (ascii "IDVAS-BBR")).take 32)

/-- The words of the key that the n words of BBRAM from `base` on unwrap to, where they do (R554). -/
def slotKey (s : State) (base n : Nat) : Option (List Word) := kwUnwrap kbbr ((List.range n).map (fun i => tget 0 s.sec.bbram (base + i)))

/-- The legacy key, where it is present (R459, R554, R555, R681). -/
def legacySlot (s : State) : Option (BitVec 128) :=
  if bitOf s.sec.state 52 then (slotKey s 6 3).map (fun ws => bytesBlock (ws.flatMap (fun w => leBytes 8 w.toNat))) else none

/-- The IDCODE answer MODESEL chooses (R533): 0 NATIVE, 1 MK2140-C, 2 MK2140-D. -/
def idAnswer (s : State) : Nat := [0, 0, 0, 0, 0, 0, 0, 1, 2, 0, 1, 2, 1, 2, 1, 2].getD (fld s.rst.state 55 52) 0

/-- The legacy pin mode MODESEL chooses (R533, R467): 0 master-serial, 1 slave-serial, 2 slave-8-bit, 3 none. -/
def legacyMode (s : State) : Nat :=
  if modeCode s ≠ 1 then 3 else [0, 0, 0, 1, 1, 2, 2].getD (fld s.rst.state 55 52 - 9) 0

/-- The status register as it reads: PLLOK is live (R467). -/
def lgStatus (s : State) : Word :=
  setBit s.lg.stat 8 (s.lg.hosted && s.lg.plls.all (fun i => bitOf (pllOf s i).stat 62))

/-- A field of the legacy status register (R467). -/
def lgField (s : State) (hi lo v : Nat) : State := { s with lg := { s.lg with stat := setFld s.lg.stat hi lo v } }

/-- CFG_DONE and LG_DONE follow each other in compatibility mode (R468). -/
def lgDoneSet (s : State) (b : Bool) : State :=
  let s1 := lgField s 4 4 b.toNat
  if modeCode s = 1 then { s1 with pins := { s1.pins with cfgDone := b } } else s1

end Sys2Proof.Machine
end

