-- ==== Sys2Proof/Machine/Stats.lean ====
section
/-! DEFINITION. The routers' initiators and the statistics that routers keep for them (R79, R230, R231, R256). -/

namespace Sys2Proof.Machine
open Sys2Proof

/-! ### Routers and their initiators (R79, R230, R231, R256) -/

/-- The panel and tile a fabric router serves. -/
def routerPanel (r : Nat) : Nat :=
  let x := r / 16
  let y := r % 16
  8 * ((if x < 13 then 0 else 1) + (if y < 8 then 0 else 2)) + 4 * (y % 8 / 4) + (x - 1) % 12 / 3
def routerTile (r : Nat) : Nat := (r / 16 - 1) % 3 + 3 * (r % 16 % 4)
def hubRouter (r : Nat) : Bool := decide (r < 16)

/-- The eight engines of group j of panel p. -/
def groupInits (p j : Nat) : List Nat := (List.range 8).map (fun i => 0x1000 + 120 * p + 8 * j + i)

/-- The initiators attached to a router, in the order of R256. -/
def routerInits (r : Nat) : List Nat :=
  if r = 5 then [0, 1, 2, 3, 0x10, 0x11]
  else if hubRouter r then []
  else
    let p := routerPanel r
    let t := routerTile r
    let ports := ((List.range 6).map (fun i => t + 12 * i)).filter (fun q => decide (q < 64))
    ports.map (fun q => 0x2000 + 64 * p + q) ++
    groupInits p (5 * (t % 3) + t / 3) ++
    (if t / 3 = 0 then groupInits p (5 * (t % 3) + 4) else []) ++
    (if t = 0 then (List.range 4).map (fun l => 0x3000 + 4 * p + l) else []) ++
    (if t = 0 ∧ p % 8 = 0 then [0x12 + p / 8] else [])

/-- The number k of an initiator at its router. -/
def statIndex (i : Nat) : Nat := (routerInits (initPlace i / 16)).findIdx (· == i)

/-! ### Statistics (R256) -/

def statOf (s : State) (i : Nat) : Stats := tget {} (routerOf s (initPlace i / 16)).stats (statIndex i)
def statPut (s : State) (i : Nat) (t : Stats) : State :=
  let r := initPlace i / 16
  let x := routerOf s r
  routerPut s r { x with stats := tset {} x.stats (statIndex i) t }

/-- Payload bytes sent or received. -/
def statBytes (s : State) (i units : Nat) : State :=
  if units = 0 then s else let t := statOf s i; statPut s i { t with window := t.window + 32 * units }

/-- A latency measured, and an error response counted. -/
def statLat (s : State) (i cls lat : Nat) (err : Bool) : State :=
  let t := statOf s i
  if bitOf t.cfg (4 + cls) = false then s
  else
    let l := min 65535 lat
    let base := fld t.cfg 47 32
    let width := max 1 (fld t.cfg 31 16)
    let bin := if l < base + width then 0 else min 15 ((l - base) / width)
    let lw := mkWord [(63, 48, min (fld t.lat 63 48) l), (47, 32, max (fld t.lat 47 32) l), (31, 0, satAdd 32 (fld t.lat 31 0) 1)]
    statPut s i { t with
      lat := lw, sum := satFld (satFld t.sum 47 0 l) 63 48 err.toNat
      bins := tset 0 t.bins bin (satAdd 32 (tget 0 t.bins bin) 1) }

/-- An ERR of the requester's own interface: an error response with no latency (R256). -/
def statErr (s : State) (i cls : Nat) : State :=
  let t := statOf s i
  if bitOf t.cfg (4 + cls) then statPut s i { t with sum := satFld t.sum 63 48 1 } else s

/-- A packet of the block's own and its response: the data units they carry, a latency left free, and whether the response is an
ERR (R256, log entry 48). -/
def statOwn (s : State) (i cls units : Nat) (err : Bool) : State :=
  bump (statLat (statBytes s i units) i cls (fld (Config.freeWord s.fresh) 15 0) err) 1

/-- The data units of n bytes from a, in each 512-byte block they touch. -/
def blockUnits (a n : Nat) : List Nat :=
  if n = 0 then []
  else (List.range ((a + n - 1) / 512 - a / 512 + 1)).map (fun k =>
    let lo := max a (512 * (a / 512 + k))
    let hi := min (a + n) (512 * (a / 512 + k + 1))
    (hi + 31) / 32 - lo / 32)

/-- Packets of a class that carry n bytes from a, a packet for each block; where one draws an ERR it is the last, which brings no
data (log entry 48). -/
def statBlocks (s : State) (i cls a n : Nat) (err : Bool) : State :=
  let us := blockUnits a n
  let t := (us.dropLast).foldl (fun t u => statOwn t i cls u false) s
  match us.getLast? with
  | some u => statOwn t i cls (if err then 0 else u) err
  | none => t

/-- The configuration loader's packets (R385, R419, R427); it sends in class C2 (log entry 48). -/
def statLoader (s : State) (a n : Nat) (err : Bool) : State := statBlocks s 0x11 2 a n err

end Sys2Proof.Machine
end

