-- ==== Sys2Proof/Machine/LoaderCore.lean ====
section
/-! DEFINITION. The configuration loader's operations: what a REG record sets, the checks of a load, writing frames and
memories, isolating panels, the start-up steps and the end of a load (R376 to R421). -/

namespace Sys2Proof.Machine
open Sys2Proof

/-! ### REG records (R390, R485) -/

/-- The register a REG pair names. -/
def pairReg (a : Word) : Option Reg :=
  if 0x1F000000000 ≤ a.toNat then regAt (a.toNat - 0x1F000000000) else none

/-- What a register that a stream sets holds now. -/
def regInForce (s : State) (r : Reg) : Word :=
  match r.kind with
  | .pllCfg => (pllOf s r.u).cfg
  | .pllOdiv => (pllOf s r.u).odiv
  | .mcCfg => (mcOf s r.u).cfg
  | .mcGcfg => s.gcfg
  | .mcGsel => tget 0 s.gsel r.k
  | .mcMap => tget 0 (mcOf s r.u).maps r.k
  | .mcCtl => (mcOf s r.u).ctl
  | .grdCtl => (grdOf s r.u).ctl
  | .grdRange => (winGet (grdOf s r.u) r.k).range
  | .grdRights => (winGet (grdOf s r.u) r.k).rights
  | .lnCfg => (laneOf s r.u).cfg
  | _ => 0

/-- A mask register reads its fixed bits whatever was written (R277). -/
def maskAs (s : State) (i : Nat) (v : Word) : Nat := (memMap s).fixed i v.toNat

/-- Whether a value equals the one in force. -/
def regSame (s : State) (r : Reg) (v : Word) : Bool :=
  let sl := fld s.gcfg 33 32
  match r.kind with
  | .mcGsel => decide (sl ≤ r.k) || maskAs s r.k v == maskAs s r.k (regInForce s r)
  | .mcMap => maskAs s (sl + r.k) v == maskAs s (sl + r.k) (regInForce s r)
  | _ => v &&& r.streamMask == regInForce s r &&& r.streamMask

/-- SEC_ALMCFG written (R551, R569): a write that would lower TRESP in OWNED or SEALED is ignored. -/
def almSet (s : State) (v : Word) : State :=
  if secState s ≠ 0 ∧ fld v 3 2 < fld s.sec.almcfg 3 2 then s
  else { s with sec := { s.sec with almcfg := v &&& fldMask 3 0 } }

/-- PNL_REC set (R442): a change of BASE clears every RECOK. -/
def pnlRecSet (s : State) (v : Word) : State :=
  let m := fldMask 63 63 ||| fldMask 47 16
  let s1 := { s with ld := { s.ld with pnlRec := v &&& m } }
  if fld v 47 16 = fld s.ld.pnlRec 47 16 then s1
  else { s1 with panels := tmap {} (fun _ (x : Panel) => { x with stat := setBit x.stat 59 false, copy := [] }) s1.panels }

def avsMask : Word := fldMask 63 62 ||| fldMask 47 0

/-- One REG pair applied (R390): the bits the stream sets take its value. -/
def regApply (s : State) (r : Reg) (v : Word) : State :=
  let mix := fun (w : Word) => (w &&& ~~~ r.streamMask) ||| (v &&& r.streamMask)
  match r.kind with
  | .pllCfg => pllCfgSet s r.u v
  | .pllOdiv => pllOdivSet s r.u v
  | .voteSet => voteSet s v
  | .voteClr => voteClr s v
  | .pwrAvs => { s with pwr := { s.pwr with avs := v &&& avsMask } }
  | .pwrOpp => oppWrite s r.u (setBit (mix (oppOf s r.u).reg) 62 false)
  | .pwrDom =>
    let d := domOf s r.u
    domPut s r.u { d with depth := fld v 41 40, linger := fld v 31 16 }
  | .cfgBaste => { s with ld := { s.ld with baste := v &&& r.streamMask } }
  | .pnlRec => pnlRecSet s v
  | .pnlCtl => panelPut s r.u { panelOf s r.u with ctl := v &&& fldMask 1 0 }
  | .almCfg => almSet s v
  | .nocC0 => let x := routerOf s r.u; routerPut s r.u { x with c0 := mix x.c0 }
  | .nocQos => let x := routerOf s r.u; routerPut s r.u { x with qos := mix x.qos }
  | .nocPorten => let x := routerOf s r.u; routerPut s r.u { x with porten := mix x.porten }
  | .mcCfg => mcPut s r.u { mcOf s r.u with cfg := v &&& r.streamMask }
  | .mcGcfg => { s with gcfg := mix s.gcfg }
  | .mcGsel => { s with gsel := tset 0 s.gsel r.k (v &&& r.streamMask) }
  | .mcMap => let c := mcOf s r.u; mcPut s r.u { c with maps := tset 0 c.maps r.k (v &&& r.streamMask) }
  | .mcCtl => let c := mcOf s r.u; mcPut s r.u { c with ctl := mix c.ctl }
  | .grdCtl => let g := grdOf s r.u; grdPut s r.u { g with ctl := mix g.ctl }
  | .grdRange => grdPut s r.u (winWrite (grdOf s r.u) r.k false v)
  | .grdRights => grdPut s r.u (winWrite (grdOf s r.u) r.k true v)
  | .lnCfg => lanePut s r.u { laneOf s r.u with cfg := v &&& r.streamMask }
  | .bnkCfg =>
    let b := bank s r.u
    let c := bankWriteCfg { b with cfg := setBit (mix b.cfg) 0 (bitOf b.cfg 0) } (setBit (mix b.cfg) 0 (bitOf v 0))
    bankPut s r.u { c with imgCfg := (b.imgCfg &&& ~~~ r.streamMask) ||| (c.cfg &&& r.streamMask) }
  | .bnkOwn => let t := (bankOwnSet s r.u v).2; bankPut t r.u { bank t r.u with imgOwn := ownerOf v }
  | .engCtl => engCtlWrite s r.u (mix (eng s r.u).ctl)
  | _ => s

def pairApply (s : State) (p : Word × Word) : State :=
  match pairReg p.1 with
  | some r => regApply s r p.2
  | none => s

/-! ### The SETTING checks (R269, R276, R294, R305, R337, R369, R390, R392, R393, R403) -/

/-- The controllers of the basting area of the load under way, where it is in GDDR7. -/
def basteServers (s : State) : List Nat := if s.ld.area = 2 then servers s s.ld.base (2 ^ 28) else []

/-- The basting area lies in one slice's data region, below the guard regions (R305, R392). -/
def basteInside (s : State) : Bool :=
  let mm := memMap s
  let size := dataGroups mm.gb * 2 ^ (9 + mm.k)
  s.ld.base / 2 ^ (34 + mm.s) == (s.ld.base + 2 ^ 28 - 1) / 2 ^ (34 + mm.s) &&
  decide (s.ld.base % 2 ^ (34 + mm.s) + 2 ^ 28 ≤ size) && decide (s.ld.base / 2 ^ (34 + mm.s) * 2 ^ mm.s < 8)

/-- PAM4 is not above the grade's limit (R3, R337): 106.25 Gb/s on -1. -/
def pamOk (pamr : Nat) : Bool := if Config.grade = 1 then decide (pamr ≤ 2) else true
/-- The highest pin rate of the grade in units of 0.5 Gb/s (R3, R269). -/
def mcRateMax : Nat := if Config.grade = 1 then 0x40 else if Config.grade = 2 then 0x48 else 0x50

/-- One signalling at one rate per quad, in range (R337, R369). -/
def lanesOk (s : State) : Bool :=
  (List.range 32).all (fun q =>
    let on := ((List.range 4).map (fun i => (laneOf s (4 * q + i)).cfg)).filter (fun w => fld w 63 60 != 0)
    let key := fun (w : Word) => if bitOf w 59 then (1, fld w 58 57) else (0, fld w 56 45)
    on.all (fun w => key w == key (on.headD 0))) &&
  (List.range 128).all (fun l =>
    let w := (laneOf s l).cfg
    decide (fld w 63 60 ≤ 3) && fld w 20 19 != 3 && decide (fld w 44 40 ≤ 16) &&
    (fld w 63 60 == 0 || (if bitOf w 59 then pamOk (fld w 58 57)
      else decide (0x050 ≤ fld w 56 45) && decide (fld w 56 45 ≤ 0x708))))

/-- Controllers of one kind and rate, every value legal whether enabled or not, but for a disabled controller's RATE of 0; the
controllers of a slice all on or all off (R269, R276, R294). -/
def controllersOk (s : State) : Bool :=
  let on := ((List.range 8).map (fun m => (mcOf s m).cfg)).filter (fun w => bitOf w 32)
  let w := 2 ^ fld s.gcfg 33 32
  on.all (fun c => fld c 47 40 == fld (on.headD 0) 47 40 && fld c 35 33 == fld (on.headD 0) 35 33) &&
  (List.range 8).all (fun m =>
    let c := (mcOf s m).cfg
    decide (fld c 35 34 ≤ 1) && ((!bitOf c 32 && fld c 47 40 == 0) ||
      (decide (0x38 ≤ fld c 47 40) && decide (fld c 47 40 ≤ mcRateMax)))) &&
  (List.range 8).all (fun m => bitOf (mcOf s m).cfg 32 == bitOf (mcOf s (m / w * w)).cfg 32)

/-- A REG pair a stream of this kind may hold (R390, R403, R485). -/
def pairOk (s : State) (kind : Nat) (p : Word × Word) : Bool :=
  match pairReg p.1 with
  | none => false
  | some r =>
    let fixed := [RegKind.mcCfg, .mcGcfg, .mcGsel, .mcMap, .lnCfg, .pllCfg, .pllOdiv].contains r.kind
    let ctl := [RegKind.mcCfg, .mcMap, .mcCtl, .grdCtl, .grdRange, .grdRights].contains r.kind
    let shared := r.kind == RegKind.mcGcfg || r.kind == RegKind.mcGsel
    r.streamMask != 0 && within p.2 r.streamMask && (kind != 1 || r.starterOk) &&
    (kind != 3 || !fixed || regSame s r p.2) &&
    (!(ctl && (basteServers s).contains r.u) || regSame s r p.2) &&
    (!(shared && s.ld.area == 2) || regSame s r p.2) &&
    (r.kind != RegKind.bnkOwn || ownerLegal (ownerOf p.2)) &&
    (r.kind != RegKind.bnkCfg || decide (fld p.2 36 32 ≤ 16))

/-- The banks a MEM record reaches; none for an engine. -/
def memBank (a : Nat) : Option Nat :=
  if 0x10000000000 ≤ a ∧ a < 0x1000C000000 then some ((a - 0x10000000000) / 0x10000) else none

/-- Every regional clock of a clock frame that is scalable has scaled global clocks on the inputs it uses (R91, R484). R91 does
not say which those are: SEL alone under SELSRC 0b00, all four under 0b01, none with EN 0 (log entry 58, DESIGN CHOICE). -/
def scalesOk (s : State) (a : FAddr) (ws : List Word) : Bool :=
  (ws.take 16).all (fun w =>
    !bitOf w 41 || !bitOf w 55 || (List.range 4).all (fun j =>
      (fld w 47 46 == 0 && fld w 49 48 != j) ||
      bitOf (pllOf s (10 * (a.p / 8) + fld w (24 + 5 * j) (20 + 5 * j) / 4)).cfg 62))

/-- The SETTING checks of a stream (R390, R392, R393, R403, R479). -/
def settingOk (s : State) (kind : Nat) (comp : Bool) (rs : List SRec) : Bool :=
  let ps := regPairs rs
  let t := ps.foldl pairApply s
  let mems := rs.flatMap (fun r => if r.rtype = 4 then (match r.mem comp with
    | some m => [m]
    | none => []) else [])
  let rsv := bitOf t.ld.baste 62 || modeCode s == 1
  let tiles := rs.flatMap (fun r => if r.rtype = 1 then (r.frames comp).getD [] else [])
  ps.all (pairOk s kind) && lanesOk t && controllersOk t && (kind == 3 || (List.range 40).all (pllLegal t)) && (s.ld.area != 2 || basteInside s) &&
  mems.all (fun m => match memBank m.1 with
    | some n => (decide (n < 640) || decide (768 ≤ n) || (kind == 3 && !rsv)) && (kind != 1 || decide (n < 96))
    | none => kind != 1) &&
  (!rsv || tiles.all (fun f =>
    !((f.1.p == 7 && decide (149 ≤ f.1.col)) || (f.1.p == 6 && decide (157 ≤ f.1.col))) ||
    (List.range 8).all (fun i => (ownerOf (f.2.getD (11 + i) 0)).kind == 0)))

/-! ### The beginning and end of a load -/

def ldHdr (s : State) : SHdr := hdrOf s.ld.rx
/-- A field of CFG_STAT. -/
def ldField (s : State) (hi lo v : Nat) : State := { s with ld := { s.ld with stat := setFld s.ld.stat hi lo v } }
/-- The panels of the load. -/
def ldPanels (s : State) : List Nat := bitsOf 32 (fld s.ld.stat 31 0)
def ldKind (s : State) : Nat := fld s.ld.stat 51 48
/-- The records of the stream in the basting area, once it is verified. -/
def ldRecs (s : State) : List SRec := (recAll s.ld.body.length s.ld.body).getD []

/-- STAGE advances (R548). -/
def stageUp (s : State) (n : Nat) : State := if stage s < n ∧ bitOf s.rst.state 58 = false then setStage s n else s

/-- RECEIVE begins from a source (R391, R408, R409). -/
def ldBegin (s : State) (src : Nat) : State :=
  { s with ld := { s.ld with
    stat := setFld (setFld (setFld (setFld (setFld s.ld.stat 63 60 1) 55 52 src) 47 40 0) 37 36 0) 35 32 0
    prog := 0, src := src, rx := [], want := 0, checked := false, waitMem := false, area := 0, records := [], body := []
    regs := [], secrets := [], isolated := false, took := false, slot := 0, waited := false } }

/-- A load fails with ERR code; at a cold start the fallback follows a failed check (R377, R406). -/
def ldFail (s : State) (code : Nat) : State :=
  let c := s.ld.cold
  let fb := if c = 1 then s.ld.dir.getD 2 0 else if c = 3 then s.ld.dir.getD 3 0 else 0
  let s1 := loadFail s code
  if code = 0x0E ∨ fb = 0 then { s1 with ld := { s1.ld with cold := 0 } }
  else
    let s2 := ldBegin s1 0
    { s2 with ld := { s2.ld with
      cold := c + 1, stat := setBit s2.ld.stat 39 true, ctl := setFld s2.ld.ctl 31 0 fb } }

/-- The source of a cold start (R533); none where it is the legacy pins or MODESEL decodes to no code (R534). -/
def coldSource (s : State) : Option Nat :=
  if bitOf s.rst.state 51 then none
  else [some 0, some 0, some 2, some 2, some 3, some 0, some 0, some 0, some 0].getD (fld s.rst.state 55 52) none

/-- The cold start's loads begin (R376, R377). From the boot link, L0 to L7 are set up as R367 states. -/
def ldCold (s : State) : State :=
  match coldSource s with
  | none => s
  | some 2 =>
    let cfg := fun (l : Nat) => mkWord [(63, 60, 3), (56, 45, 1650), (44, 40, if l = 0 then 8 else 0)]
    let s1 := (List.range 8).foldl (fun t l => lanePut t l { laneOf t l with cfg := cfg l }) s
    let s2 := ldBegin s1 2
    { s2 with ld := { s2.ld with cold := 1 } }
  | some src => let s1 := ldBegin s src; { s1 with ld := { s1.ld with cold := 1 } }

/-- The key KEYSRC names is the choice fixed in the fuses and is present (R381, R555). -/
def ldKeyOk (s : State) (h : SHdr) : Bool :=
  !h.enc || (h.keysrc == (bitOf s.sec.state 58).toNat && bitOf s.sec.state (if h.keysrc = 0 then 57 else 53))

/-- Whether a stream of this kind and these panels is accepted now (R403, R468). -/
def ldTimely (s : State) (h : SHdr) : Bool :=
  (if modeCode s = 1 then h.kind == 3 && !nbit h.panels 1 else true) &&
  (match h.kind with
    | 1 => ldPhase s == 0 && h.panels == 1
    | 2 => ldPhase s == 1 && !nbit h.panels 0
    | _ => ldPhase s == 2)

/-- On-chip basting is available (R393): until the main start-up ends, and after it where RSVONCHIP keeps it. -/
def onChip (s : State) : Bool := ldPhase s != 2 || bitOf s.ld.baste 62 || modeCode s == 1

/-- Whether the controllers of the basting area let the load go on (R392): 0 yes, 1 wait, 2 no. -/
def basteState (s : State) : Nat :=
  let ms := basteServers s
  let cold := s.ld.cold != 0 && ldKind s == 2
  let ok := fun (m : Nat) => mcState (mcOf s m) == 2 &&
    (gState (grdOf s m) == 2 || (!cold && gState (grdOf s m) == 3))
  if ms.isEmpty then 2
  else if ms.all ok then 0
  else if cold = true ∧ ms.all (fun m => bitOf (mcOf s m).cfg 32 && mcState (mcOf s m) != 5) = true then 1
  else 2

/-- The header is checked as soon as it is in (R380, R381, R391, R392, R403): an ERR code, or 0 with the basting area
chosen. -/
def ldHeader (s : State) : Nat × State :=
  let h := ldHdr s
  if h.ok = false then (0x01, s)
  else
    let s1 := ldField (ldField s 51 48 h.kind) 31 0 h.panels
    let st := secState s
    if (st ≠ 0 ∧ h.signed = false) ∨ (st = 2 ∧ h.enc = false) then (0x02, s1)
    else if ldKeyOk s h = false then (0x03, s1)
    else if ldTimely s h = false then (0x07, s1)
    else
      let s2 := { s1 with ld := { s1.ld with want := h.total, checked := true } }
      if h.total ≤ 8388608 ∧ onChip s = true then
        (0, ldField { s2 with ld := { s2.ld with area := 1 } } 37 36 1)
      else if 2 ^ 28 < h.total then (0x04, s1)
      else if bitOf s.ld.baste 63 = false then (0x05, s1)
      else
        let s3 := ldField { s2 with ld := { s2.ld with area := 2, base := fld s.ld.baste 47 16 * 65536 } } 37 36 2
        match basteState s3 with
        | 0 => (0, s3)
        | 1 => (0, { s3 with ld := { s3.ld with waitMem := true } })
        | _ => (0x05, s1)

/-- The words of the stream that have come whole since the basting area last took some, written into banks 640 up
(R391, R393). -/
def basteStore (s : State) (from_ : Nat) : State :=
  if s.ld.area ≠ 1 then s
  else
    let ws := wordsOf (s.ld.rx.drop (8 * from_))
    ws.zipIdx.foldl (fun t p =>
      let i := from_ + p.2
      if i < 1048576 then
        let n := 640 + i / 8192
        bankPut t n (bankStore (bank t n) (i % 8192) { val := p.1, pois := false })
      else t) s

/-- Stream bytes reach the loader in RECEIVE (R376, R391, R410). While the load waits for its GDDR7 area nothing more
than what has come is stored. -/
def ldFeed (s : State) (bytes : List Byte) : State :=
  let old := s.ld.rx.length
  let room := if s.ld.checked then s.ld.want - old else 2 ^ 28 + 272
  let rx := s.ld.rx ++ bytes.take room
  let s1 := { s with ld := { s.ld with rx := rx, prog := setFld s.ld.prog 63 32 (min (2 ^ 32 - 1) rx.length) } }
  let r := if s.ld.checked = false ∧ 64 ≤ rx.length then ldHeader s1 else (0, s1)
  if r.1 ≠ 0 then ldFail r.2 r.1
  else
    let s2 := if r.2.ld.checked then { r.2 with ld := { r.2.ld with rx := r.2.ld.rx.take r.2.ld.want } } else r.2
    basteStore s2 (if s.ld.checked then old / 8 else 0)

/-! ### COMMIT (R391, R415, R419) -/

/-- The engine groups in slot 7 and slot 8 of tile t's router (R80, R230). -/
def tileGroup (t slot : Nat) : Option Nat :=
  if slot = 7 then some (5 * (t % 3) + t / 3) else if t / 3 = 0 then some (5 * (t % 3) + 4) else none

/-- Transmit lanes of a panel's quad in electrical idle (R396), the boot link apart. -/
def lanesIdle (s : State) (p : Nat) : State :=
  (List.range 4).foldl (fun t i =>
    let k := 4 * p + i
    if fld (laneOf t k).stat 59 58 = 2 ∧ lnMode t k ≠ 3 then laneTaken (lnPutField t k 59 58 1) k else t) s

/-- Steps 1 to 4 of R415 for a panel: it leaves the scan, its clocks stop, its seams freeze, the wrappers of its ports and
engine groups drain and its banks go to HUB. The loader wakes what it is about to write (R501). -/
def panelIsolate (s : State) (why st p : Nat) : State :=
  let x := panelOf s p
  let w := tget 0 s.dbg.xtp p
  let s0 := if why = 3 then s else
    { s with dbg := { s.dbg with xtp := tset 0 s.dbg.xtp p (setBit (setBit w 63 false) 62 false) } }
  let s1 := panelSetState (panelPut s0 p { x with
    iso := why, drained := false, seam := true, out := false, sr := false, we := false }) p st
  let s2 := (List.range 120).foldl (fun t i => wrapDisable t (120 * p + i)) s1
  let s3 := (List.range 64).foldl (fun t q => wrapDisable t (6000 + 64 * p + q)) s2
  let s4 := (List.range 96).foldl (fun t i => bankPut t (96 * p + i) (bankWriteOwn (bank t (96 * p + i)) {})) s3
  let s5 := if why = 1 then lanesIdle s4 p else s4
  (List.range 12).foldl (fun t g => wakeDomain t (0x200 + 12 * p + g) 4)
    ((List.range 15).foldl (fun t g => wakeDomain t (15 * p + g) 4) (wakeDomain s5 (0x460 + p) 4))

/-- Step 5 of R415: every drain is over, the handovers complete, the trees assert and the engines are in RESET. A
recovery resets the panel (R430). -/
def panelDrained (s : State) (p : Nat) : State :=
  let recover := (panelOf s p).iso != 1
  let us := (List.range 120).map (fun i => 120 * p + i) ++ (List.range 64).map (fun q => 6000 + 64 * p + q)
  let s1 := us.foldl (fun t u => wrapStop (wrapAnswer t u 3) u) s
  let s2 := (List.range 96).foldl (fun t i =>
    let b := bank t (96 * p + i)
    bankPut t (96 * p + i) (if b.busy then bankSwitch b else b)) s1
  let s3 := if recover then panelReset s2 p none else panelsReset s2 (· == p) 1 (fun e => (eng s2 e).lastrst)
  panelPut s3 p { panelOf s3 p with drained := true }

/-- The change of R252 begins at a router. -/
def routerGo (s : State) (r : Nat) : State :=
  let x := routerOf s r
  routerPut s r { x with chg := setBit x.chg 63 true }

/-- A tile frame's images (R388, R420): the router's by a change, the banks' kept for the end of COMMIT. -/
def tileImages (s : State) (p t : Nat) (ws : List Word) : State :=
  let r := tileRouter p t
  let x := routerOf s r
  let mix := fun (w i m : Word) => (w &&& ~~~ m) ||| (i &&& m)
  let s1 := routerGo (routerPut s r { x with
    c0 := mix x.c0 (ws.getD 0 0) nocC0Mask, qos := mix x.qos (ws.getD 1 0) nocQosMask
    porten := mix x.porten (ws.getD 2 0) nocPortenMask, img := ws.take 3 }) r
  (List.range 8).foldl (fun u i =>
    let n := 96 * p + 8 * t + i
    let b := bank u n
    bankPut u n { b with imgCfg := ws.getD (3 + i) 0, imgOwn := ownerOf (ws.getD (11 + i) 0) }) s1

/-- A frame is written (R387, R422). -/
def frameWrite (s : State) (a : FAddr) (ws : List Word) : State :=
  let s1 := { s with frames := tset [] s.frames a.key ws }
  if 149 ≤ a.col then tileImages s1 a.p (a.col - 149) ws else s1

/-- The words of a MEM record reach their bank or engine as NoC writes (R153, R168, R385, R419): false where a write draws an
error. -/
def memWrite (s : State) (a : Nat) (ws : List Word) : Bool × State :=
  match memBank a with
  | some n =>
    let b := bank s n
    if ownerAccepts b.own 0x11 = false ∨ b.busy = true then (false, s)
    else (true, bankPut s n (ws.zipIdx.foldl (fun c p =>
      bankStore c (a % 0x10000 / 8 + p.2) { val := p.1, pois := false }) b))
  | none =>
    let e := (a - 0x11000000000) / 0x8000
    let o := a % 0x8000 / 8
    let x := eng s e
    if (x.st = .running ∨ x.st = .waiting) ∧ 2048 ≤ o + ws.length - 1 then (false, s)
    else (true, engPut s e (ws.zipIdx.foldl (fun y p => engStoreWord y 0 (o + p.2) 0xFF { val := p.1, pois := false } 0) x))

/-- Whether a MEM record's bank or engine is there to be written: not asleep (R216, R501). -/
def memAwake (s : State) (a : Nat) : Bool :=
  match memBank a with
  | some n => bankState s n == 0
  | none => decide ((domOf s (engGroup ((a - 0x11000000000) / 0x8000))).cur ≤ 1)

/-- The next record of the COMMIT under way, where the load has reached step 5 of R415 and no recovery runs (R398). -/
def ldNext (s : State) (rtype : Nat) : Option (SRec × List Word) :=
  if ldState s = 3 ∧ s.ld.isolated = true ∧ s.ld.recs.isEmpty = true then
    match recHead s.ld.records with
    | some (r, rest) => if r.rtype = rtype then some (r, rest) else none
    | none => none
  else none

/-- A record is done: the rest waits, and STB counts its bytes (R410). -/
def ldTake (s : State) (r : SRec) (rest : List Word) : State :=
  { s with ld := { s.ld with records := rest, prog := satFld s.ld.prog 31 0 (8 * (r.len + 1)) } }

/-- COMMIT begins: every named panel is isolated at once (R415). -/
def ldCommit (s : State) : State :=
  let s1 := ldSet { s with ld := { s.ld with
    records := s.ld.body, isolated := false, took := false, prog := setFld s.ld.prog 31 0 0 } } 3
  (ldPanels s1).foldl (fun t p => panelIsolate t 1 2 p) s1

/-- The owner and settings a tile image gives a bank of a loaded panel at the end of COMMIT (R219, R419); those of banks
640 to 767 wait for the end of a main start-up (R393). -/
def bankImage (main : Bool) (n : Nat) (b : Bank) : Bank :=
  let c := { b with cfg := (b.cfg &&& ~~~ bnkCfgMask) ||| (b.imgCfg &&& bnkCfgMask), resv := [] }
  if main = true ∧ 640 ≤ n ∧ n < 768 then c else bankGive c c.imgOwn

def banksPass (s : State) (main : Bool) (p : Nat) : State :=
  (List.range 96).foldl (fun t i => bankPut t (96 * p + i) (bankImage main (96 * p + i) (bank t (96 * p + i)))) s

/-- The windows grant the loader read and write of its recovery copy, and its guards are READY (R322, R427). -/
def copyAllowed (s : State) (p : Nat) : Bool :=
  let a := fld s.ld.pnlRec 47 16 * 65536 + p * 0x700000
  let ms := servers s a 0x700000
  !ms.isEmpty && ms.all (fun m =>
    mcState (mcOf s m) == 2 && gState (grdOf s m) == 2 &&
    (match winFor (grdOf s m) a with
      | some w => fld w.rights 9 8 == 3
      | none => false))

/-- Word i of the recovery copy of a panel: the trailer, the count of frames, and each frame with its CRC word (R422, R427). -/
def copyWord (s : State) (trailer : Word) (p i : Nat) : Word :=
  let f := (i - 8) / 369
  let col := if f < 2304 then f / 16 else f - 2160
  let row := if f < 2304 then f % 16 else 0
  if i = 0 then trailer else if i = 1 then 2321 else if i < 8 then 0
  else if (i - 8) % 369 < 368 then frameWord s p col row ((i - 8) % 369)
  else BitVec.ofNat 64 (crc32c ((List.range 368).flatMap (fun k => leBytes 8 (frameWord s p col row k).toNat)))

/-- Controller, guard and page of a byte address. -/
def memHome (s : State) (a : Nat) : Nat :=
  let mm := memMap s
  let slice := a / 2 ^ (34 + mm.s)
  slice * 2 ^ mm.s + (mm.locate slice (a % 2 ^ (34 + mm.s))).sel

/-- The first words of a line written through its guard by the loader (R312, R313). -/
def lineLoad (s : State) (a : Nat) (ws : List Word) : State :=
  let x := gsOf s (memHome s a)
  let la := a / 64
  let n := x.num la
  let spent := minorOf x.g n == 126
  let y := if spent then GS.reencrypted { x with g := { x.g with reenc := n / 64 :: x.g.reenc } } [] else x
  let old := y.lineAt la
  let fresh := y.unwritten la
  let lost := if fresh then bitOf (majorOf y.g (n / 64)) 63 else old.pois
  let base := if fresh then [] else old.words
  let part := decide (ws.length < 8)
  let read := y.dataRead n
  if part = true ∧ fresh = false ∧ read.ue = false ∧ read.tagOk = false then gsPut s (y.pwDrop n)
  else
    let p := dataPlace n
    gsPut s ((y.store n { words := (List.range 8).map (fun i => ws.getD i (base.getD i 0)), pois := part && lost } spent).writeOut
      p.1 p.2.1 [p.2.2])

/-- The recovery copy of a panel written at a, 6,851,656 bytes (R427). -/
def copyStore (s0 : State) (trailer : Word) (p a : Nat) : State :=
  let s := statLoader s0 a 6851656 false
  (List.range 107058).foldl (fun t l =>
    lineLoad t (a + 64 * l) ((List.range (min 8 (856457 - 8 * l))).map (fun i => copyWord s trailer p (8 * l + i)))) s

/-- No line of the copy lies in a page that a guard has lost (R317). -/
def copyOpen (s : State) (a : Nat) : Bool := (List.range 107058).all (fun l =>
  let x := gsOf s (memHome s (a + 64 * l))
  !pageDead x.g (x.page (a / 64 + l)))

/-- The recovery copy of a loaded panel (R427). -/
def panelCopy (s : State) (trailer : Word) (p : Nat) : State :=
  let x := panelOf s p
  let own := tfilter (fun k => k / 2576 == p) s.frames
  let a := fld s.ld.pnlRec 47 16 * 65536 + p * 0x700000
  if bitOf s.ld.pnlRec 63 = true ∧ copyAllowed s p = true ∧ copyOpen s a = true then
    panelPut (copyStore s trailer p a) p { x with stat := setBit x.stat 59 true, copy := own, copyTrailer := trailer, copyBase := a }
  else panelPut s p { x with stat := setBit x.stat 59 false, copy := [] }

/-! ### Start-up (R400 to R404) -/

def slotByte (s : State) : Nat := fld s.ld.trailer (8 * s.ld.slot + 7) (8 * s.ld.slot)

/-- What the step in the current slot waits for: 0 nothing, 1 and 2 a pin, 3 the LG_DONE ball (R401, R463). -/
def slotWait (s : State) : Nat :=
  if s.ld.src = 4 then (if nbit (lgOpt s.lg) 3 = true ∧ slotByte s / 64 = 1 then 3 else 0) else slotByte s / 16 % 4

/-- A new slot becomes current: its step waits for its pin, if it names one (R402). Before an OUT that waits for the
LG_DONE ball, LG_DONE is released (R463). -/
def slotEnter (s : State) : State :=
  if slotWait s = 0 then ldSet { s with ld := { s.ld with waited := true } } 4
  else
    let s1 := ldSet { s with ld := { s.ld with waited := false } } 5
    if slotWait s = 3 then lgDoneSet s1 true else s1

/-- STARTUP begins: the panels are STARTING (R414, R419); with a starter's the dividers of F0 are held (R404). -/
def ldStartup (s : State) : State :=
  let s1 := (ldPanels s).foldl (fun t p => rclksSelect (panelSetState t p 4) p true) s
  let s2 := if ldKind s = 1 ∧ s.ld.src ≠ 4 then dividersCap s1 else s1
  slotEnter (ldSet { s2 with ld := { s2.ld with slot := 0 } } 4)

/-- Whether a start-up step is the one to run now. -/
def stepDue (s : State) (code : Nat) : Bool :=
  ldState s == 4 && s.ld.waited && slotByte s / 64 == code && decide (s.ld.slot < 4)

/-- Wrappers that were stopped for the load wait for their unit to be ready (R38). -/
def wrapsWake (s : State) (us : List Nat) : State :=
  us.foldl (fun t u => if (wrapOf t u).st = WrapSt.stopped ∧ (wrapOf t u).off = false then
    wrapPut t u { wrapOf t u with st := .waking } else t) s

/-- The panel's engines are the compatibility window's, which stay in RESET (R446). -/
def windowPanel (s : State) (p : Nat) : Bool := p == 1 && modeCode s != 0

/-- ENG_CTL's fields START, KEEP and RUN as the stream gives them: REG records over a tile image (R180, R391). -/
def imgCtl (regs : List (Word × Word)) (e : Nat) (w : Word) : Word :=
  regs.foldl (fun a p => match pairReg p.1 with
    | some r => if r.kind = .engCtl ∧ r.u = e then (a &&& ~~~ r.streamMask) ||| (p.2 &&& r.streamMask) else a
    | none => a) w

/-- WE on a panel (R180, R400, R419): banks accept writes, engines take START, KEEP and RUN of their images and of the REG
records given and leave RESET, the wrappers of the engine groups open. -/
def panelWeBy (regs : List (Word × Word)) (s : State) (p : Nat) : State :=
  let s1 := panelPut s p { panelOf s p with we := true }
  if windowPanel s p then s1
  else
    let images := (List.range 12).flatMap (fun t => [7, 8].flatMap (fun sl => match tileGroup t sl with
      | some j => (List.range 8).map (fun i => (120 * p + 8 * j + i, tileWord s p t (19 + (sl - 7) * 8 + i)))
      | none => []))
    let s2 := images.foldl (fun t (e : Nat × Word) =>
      let x := eng t e.1
      engTryLeave (engPut t e.1 { x with ctl := (x.ctl &&& ~~~ engCtlMask) ||| (imgCtl regs e.1 e.2 &&& engCtlMask) }) e.1) s1
    wrapsWake s2 ((List.range 120).map (fun i => 120 * p + i))

/-- WE on a panel, of a recovery or a WARM release. -/
def panelWe (s : State) (p : Nat) : State := panelWeBy [] s p

/-- OUT on a panel (R400, R418): I/O and transmit lanes take their configured behaviour, seams unfreeze. -/
def panelOut (s : State) (p : Nat) : State :=
  let s1 := panelPut s p { panelOf s p with out := true, seam := false }
  (List.range 4).foldl (fun t i =>
    let k := 4 * p + i
    if fld (laneOf t k).stat 59 58 = 1 ∧ txReq t k = 2 then lnPutField t k 59 58 2 else t) s1

/-- SR on a panel (R102, R400): the trees are released by their clocks' edges. -/
def panelSr (s : State) (p : Nat) : State := panelPut s p { panelOf s p with sr := true }

/-- Every step has run on a panel (R414, R419): RUN, not isolated, its ports open. -/
def panelRun (s : State) (p : Nat) : State :=
  let s1 := panelSetState (panelPut s p { panelOf s p with iso := 0, drained := false }) p 1
  wrapsWake s1 ((List.range 64).map (fun q => 6000 + 64 * p + q))

/-- The basting area's banks leave basting at the end of the main start-up (R393, R394). -/
def basteLeave (s : State) : State :=
  if bitOf s.ld.baste 62 then s
  else { s with banks := tmap {} (fun n (b : Bank) => if 640 ≤ n ∧ n < 768 then
      bankGive b b.imgOwn else b) s.banks }

/-- The load has run its last step (R393, R394, R402 to R404): the basting area goes, PHASE moves on, and at a cold start
the main load follows the starter. -/
def ldFinish (s : State) : State :=
  let kind := ldKind s
  let src := s.ld.src
  let s1 := basteDiscard ((ldPanels s).foldl panelRun s)
  let s2 := ldSet { s1 with ld := { s1.ld with area := 0, want := 0, checked := false } } 0
  let s3 := if src = 4 ∨ kind = 2 then ldField s2 59 56 2 else if kind = 1 then ldField s2 59 56 1 else s2
  let s4 := (List.range 4).foldl oppRetarget s3
  if src = 4 then lgDoneSet (lgField (lgField s4 3 0 5) 12 12 0) true
  else if kind = 1 then
    let s5 := stageUp s4 14
    if s.ld.cold = 0 then s5
    else
      let s6 := ldBegin s5 src
      { s6 with ld := { s6.ld with cold := 3, ctl := if src = 0 then setFld s6.ld.ctl 31 0 (s6.ld.dir.getD 1 0) else s6.ld.ctl } }
  else if kind = 2 then
    let s5 := basteLeave s4
    fullCheck (stageUp { s5 with pins := { s5.pins with cfgDone := true }, ld := { s5.ld with cold := 0 } } 20)
  else s4

/-- STEPS records a step (R409). At the main load's PLL step the dividers of F0 take the values set (R404, R485); at a
cold start its PLL, SR and WE steps end stage 19 (R539). -/
def stepMark (s : State) (code : Nat) : State :=
  let u : State := { s with ld := { s.ld with stat := setBit s.ld.stat (32 + code) true } }
  let t := if code = 0 ∧ ldKind u = 2 then dividersFree u else u
  if ldKind t == 2 && fld t.ld.stat 32 32 == 1 && fld t.ld.stat 35 34 == 3 then stageUp t 19 else t

/-- A step has run: the next slot follows, or the load ends (R401). -/
def slotDone (s : State) (code : Nat) : State :=
  let t := stepMark s code
  let u : State := { t with ld := { t.ld with slot := t.ld.slot + 1 } }
  if t.ld.slot == 3 then ldFinish u else slotEnter u

/-- The PLLs that the stream's REG records configure (R400). -/
def ldPlls (s : State) : List Nat :=
  (regPairs (ldRecs s)).filterMap (fun p => match pairReg p.1 with
    | some r => if r.kind = .pllCfg ∧ bitOf p.2 63 = true then some r.u else none
    | none => none)

end Sys2Proof.Machine
end

