-- ==== Sys2Proof/Machine/Lane.lean ====
section
/-! DEFINITION. The commands of serial lanes, Ethernet ports and native links: frames, control blocks, restriping,
bring-up, lane power, the direct fabric path and the switches of a DMA queue (R325 to R328, R336 to R375). -/

namespace Sys2Proof.Machine
open Sys2Proof

/-! ### Shared operations -/

/-- A lead lane of a native link in ACTIVE. -/
def lkUp (s : State) (l : Nat) : Bool := lnIsLead s l && lnNative s l && lnState s l == 5

/-- The types of R349. -/
def fabricType (t : Nat) : Bool := t == 0x10 || t == 0x11
def dmaType (t : Nat) : Bool := t == 0x01 || t == 0x02

/-- A payload's length is 32 to 512 bytes in units of 32 (R327). -/
def payloadFits (p : List Byte) : Bool := decide (32 ≤ p.length) && decide (p.length ≤ 512) && p.length % 32 == 0

/-- An ACK goes out (R350). -/
def lkAck (s : State) (l : Nat) : State :=
  let x := lkOf s l
  lkSend (lkPut s l { x with sinceAck := 0 }) l { kind := ctlACK, val := x.rxSeq }

/-- A frame is discarded, counted and asked for again; the fourth within 1 ms returns the link to bring-up with an alarm
(R328, R351). -/
def lkReject (s : State) (l : Nat) (resend : Bool) : State :=
  let x := lkOf s l
  let ds := x.discards.filter (fun t => decide (s.now < t + 1000)) ++ [s.now]
  let s1 := lkPut (lkDiscard s l) l { x with discards := if ds.length < 4 then ds else [], opened := false }
  if 4 ≤ ds.length then alarms (lkLeave s1 l 2) [5]
  else if resend then
    lkSend (lkPut s1 l { lkOf s1 l with skip := some x.rxSeq }) l { kind := ctlNAK, val := x.rxSeq }
  else s1

/-- A frame whose tag has passed is delivered in SEQ order (R349, R350): to the loader on the boot link, to the fabric
or the queue otherwise. -/
def lkDeliver (s : State) (l : Nat) (f : NSent) : State :=
  let x := lkOf s l
  let s1 := lkPut s l { x with
    rxSeq := x.rxSeq + 1, skip := none, opened := false, sinceAck := x.sinceAck + 1 }
  let s2 := if lnMode s l = 3 ∧ dmaType f.ftype = true then
      (if ldState s = 1 ∧ s.ld.src = 2 ∧ s.ld.waitMem = false then ldFeed s1 f.payload else lkDiscard s1 l)
    else let y := lkOf s1 l; lkPut s1 l { y with got := y.got ++ [f] }
  let s3 := if 32 ≤ (lkOf s2 l).sinceAck then lkAck s2 l else s2
  if x.rxSeq + 1 = 2 ^ 48 then lkRekey s3 l else s3

/-- A native frame arrives (R328, R349, R351). -/
def lkReceive (s : State) (l : Nat) (f : NFrame) : State :=
  let x := lkOf s l
  if lkUp s l = false ∨ x.opened = false ∨ x.rxNew.isSome = true ∨ x.rxSleep = true then s
  else if (match x.skip with
      | some k => f.seq.toNat != k % 65536
      | none => false) then lkPut s l { x with opened := false }
  else match (if f.seq.toNat = x.rxSeq % 65536 ∧ payloadFits f.payload = true then frameOpen x x.rxSeq f else none) with
  | none => lkReject s l true
  | some p =>
    if fabricType f.ftype.toNat || dmaType f.ftype.toNat then lkDeliver s l { seq := x.rxSeq, ftype := f.ftype.toNat, payload := p }
    else lkReject (lkPut s l { x with rxSeq := x.rxSeq + 1, skip := none, sinceAck := x.sinceAck + 1 }) l false

/-- The sender resends every buffered frame from a SEQ on (R350). -/
def lkResend (s : State) (l k : Nat) : State :=
  let x := lkOf s l
  lkPut s l { x with out := x.out ++ (x.replay.filter (fun f => decide (k ≤ f.seq))).map (frameBlock x) }

/-- Whether the mode trains: a native link, or Ethernet at PAM4 rates (R340, R355). -/
def lkTrains (s : State) (l : Nat) : Bool := lnNative s l || bitOf (laneOf s l).cfg 59

/-- A link leaves OFF once all its lanes are powered, and returns there when none is (R355, R358). -/
def lkSettle (s : State) (l : Nat) : State :=
  let lanes := lnLanes s l
  if lnIsLead s l = false then s
  else if lnState s l = 0 ∧
      lanes.all (fun k => fld (laneOf s k).stat 59 58 == 2 && fld (laneOf s k).stat 57 56 == 2) = true then lnSetState s l 1
  else if lnState s l ≠ 0 ∧ lanes.all (fun k => fld (laneOf s k).stat 59 56 == 0) = true then lkLeave s l 0
  else s

/-- A native direction wakes (R359): IDLE blocks, a round of AMs, and the frames that waited. -/
def lkWake (s : State) (l : Nat) : State :=
  let x := lkOf s l
  let s1 := lkPut s l { x with txSleep := false, out := x.out ++ [{ kind := ctlIDLE }, { kind := ctlAM, val := x.txMask }] }
  lkFlush 512 ((lnLanes s1 l).foldl (fun t k => lnPutField t k 59 58 2) s1) l

/-- What a change of TXREQ or RXREQ does to lane k (R358 to R360): a half that a native ACTIVE link must first put to
sleep changes later. -/
def lanePowered (s : State) (k otx orx : Nat) : State :=
  let l := lnLead s k
  let tx := txReq s k
  let rx := rxReq s k
  let up := lkUp s l
  let all := fun (v : Nat) => (lnLanes s l).all (fun j => txReq s j == v)
  let takenTx := lnMode s k != 0 && ((tx == 0 && otx != 0) || (up && tx == 1 && otx == 2 && !all 1))
  let takenRx := lnMode s k != 0 && rx == 0 && orx != 0
  let s1 := if takenTx || takenRx then laneTaken s k else s
  let s2 := lnPower s1 k
  let s3 := if up = true ∧ takenTx = false ∧ tx = 1 then lnPutField s2 k 59 58 (fld (laneOf s k).stat 59 58) else s2
  if up = true ∧ takenRx = false ∧ rx = 1 then lnPutField s3 k 57 56 (fld (laneOf s k).stat 57 56) else s3

/-- LN_CTL written (R358 to R361, R370). -/
def lnCtlWrite (s : State) (q : Nat) (v : Word) : State :=
  let x := quadOf s q
  let pick := fun (w : Word) (hi : Nat) => let n := fld v hi (hi - 1); if n = 3 then w else setFld w hi (hi - 1) n
  let w := ((List.range 8).map (fun i => 2 * i + 1)).foldl pick x.ctl
  let s1 := quadPut s q { x with ctl := w }
  let s2 := if fld w 7 0 ≠ 0 then wakeDomain s1 (0x400 + q) 1 else s1
  let s3 := if fld w 15 8 ≠ 0 then wakeDomain s2 (0x420 + q) 1 else s2
  let ks := (List.range 4).map (fun i => 4 * q + i)
  let s4 := ks.foldl (fun t k => lanePowered t k (fld x.ctl (2 * (k % 4) + 1) (2 * (k % 4)))
    (fld x.ctl (9 + 2 * (k % 4)) (8 + 2 * (k % 4)))) s3
  let s5 := ks.foldl (fun t k =>
    let l := lnLead t k
    let y := lkOf t l
    if lkUp t l = true ∧ y.txSleep = true ∧ (lnLanes t l).all (fun j => txReq t j == 2) = true then lkWake t l
    else if lkUp t l = true ∧ y.rxSleep = true ∧ rxReq t k = 2 then lkPut t l { y with rxSleep := false } else t) s4
  let s6 := ks.foldl (fun t k => if bitOf v (32 + k % 4) = true ∧ lnIsLead t k = true ∧ lnState t k ≠ 0 then
    lkLeave t k 1 else t) s5
  ks.foldl (fun t k => lkSettle t (lnLead t k)) s6

/-- LN_DQ_CTL written (R375): EN 1 restarts both indices, EN 0 disables the queue. -/
def dqCtlWrite (s : State) (l : Nat) (v : Word) : State :=
  let x := laneOf s l
  let c := setFld x.dqCtl 61 60 (fld v 61 60)
  if bitOf v 63 then
    let s1 := lanePut s l { x with dqCtl := setFld (setFld (setBit c 63 true) 54 36 0) 34 16 0
                                   stalled := if bitOf v 62 = true ∨ bitOf x.dqCtl 63 = false then false else x.stalled }
    let u := 5200 + l
    match (wrapOf s1 u).st with
    | .draining => wrapPut s1 u { wrapOf s1 u with enableAfter := true, off := false }
    | .stopped => wrapPut s1 u { wrapOf s1 u with st := .waking, off := false }
    | _ => s1
  else
    let s1 := lanePut s l { x with dqCtl := setBit c 63 false, stalled := if bitOf v 62 then false else x.stalled }
    if bitOf x.dqCtl 63 then unitOff s1 (5200 + l) else s1

/-- LN_ERR written (R373). -/
def lnErrWrite (s : State) (l : Nat) (v : Word) : State :=
  if bitOf v 0 then lanePut s l { laneOf s l with err := 0 } else s

/-! ### Codewords (R345, R346, R352) -/

/-- LOCK_LOST (R346, R365): a lane loses its block lock. -/
def laneUnlock (s : State) (k : Nat) : State :=
  let x := laneOf s k
  if bitOf x.stat 54 then
    rclkLoss (lanePut s k { x with stat := setBit x.stat 54 false, err := satFld x.err 31 24 1 }) k else s

/-- The symbols of a codeword received in error; the quad's FEC engine corrects up to 15 of its 544 (R345). -/
def cwSyms (cw : CwSeen) : Nat := ((List.range 544).filter (fun i => (cw.errs.filter (fun e => e.1 == i)).foldl (fun x e => x ^^^ e.2) 0#10 != 0)).length

/-- A codeword decoded: it counts once; one that cannot be corrected passes its 39 blocks on with invalid headers, which ends
the lane's block lock, and the eighth in a row loses the lane (R345, R346, R352). NRZ lanes carry none. -/
def cwTake (s : State) (l : Nat) (cw : CwSeen) : State :=
  let k := l + cw.lane
  let x := laneOf s k
  if bitOf x.cfg 59 = false ∨ cw.head = false then s
  else if cwSyms cw = 0 then lanePut s k { x with cwBad := 0 }
  else if cwSyms cw ≤ 15 then lanePut s k { x with cwBad := 0, err := satFld x.err 63 48 1 }
  else
    let s1 := laneUnlock (lanePut s k { x with cwBad := x.cwBad + 1, err := satFld x.err 47 32 1 }) k
    if 8 ≤ x.cwBad + 1 then laneLost s1 l cw.lane else s1

/-- Whether a block passes with a valid header. -/
def cwGood (s : State) (l : Nat) (cw : CwSeen) : Bool := !bitOf (laneOf s (l + cw.lane)).cfg 59 || decide (cwSyms cw ≤ 15)

/-- A block of a native link arrives: its codeword is decoded before it is examined. -/
def lkBlock (s : State) (l : Nat) (cw : CwSeen) (f : State → Out) : Out :=
  let t := cwTake s l cw
  if cwGood s l cw then f t else .next t

/-! ### Frames and control blocks -/

/-- NATIVE_FRAME_SEND (R327, R349, R350, R359): under the next SEQ, or waiting at its source. -/
def execNativeFrameSend (l : LaneId) (ftype : Byte) (payload : List Byte) (s : State) : Out :=
  if lnIsLead s l = true ∧ lnNative s l = true ∧ payloadFits payload = true ∧ payload.length ≤ 32 * lkUnits s l ∧
      (fabricType ftype.toNat || dmaType ftype.toNat) = true then .next (lkOffer s l ftype.toNat payload)
  else .next s
/-- NATIVE_FRAME_RECEIVE (R328, R349 to R351). -/
def execNativeFrameReceive (l : LaneId) (f : NFrame) (cw : CwSeen) (s0 : State) : Out := lkBlock s0 l cw fun s => .next (lkReceive s l f)
/-- IDLE (R347): the block fills the line; it names nothing. -/
def execCtlIdle (l : LaneId) (cw : CwSeen) (s0 : State) : Out := lkBlock s0 l cw fun s => .next s
/-- SOF (R349). -/
def execCtlSof (l : LaneId) (cw : CwSeen) (s0 : State) : Out := lkBlock s0 l cw fun s =>
  .next (if lkUp s l then lkPut s l { lkOf s l with opened := true } else s)
/-- ACK (R350): what the partner has leaves the replay buffer, and what waited for room is sent. -/
def execCtlAck (l : LaneId) (seq : Nat) (cw : CwSeen) (s0 : State) : Out := lkBlock s0 l cw fun s =>
  let x := lkOf s l
  .next (if lkUp s l then
    lkFlush 512 (lkPut s l { x with replay := x.replay.filter (fun f => decide (seq ≤ f.seq)) }) l else s)
/-- NAK (R350). -/
def execCtlNak (l : LaneId) (seq : Nat) (cw : CwSeen) (s0 : State) : Out := lkBlock s0 l cw fun s => .next (if lkUp s l then lkResend s l seq else s)
/-- AM (R348, R353): it aligns a lane; during a restripe it counts where it carries the new mask. -/
def execCtlAm (l : LaneId) (logical : Fin 16) (mask : BitVec 16) (cw : CwSeen) (s0 : State) : Out := lkBlock s0 l cw fun s =>
  let x := lkOf s l
  .next (if lnIsLead s l = true ∧ lnNative s l = true ∧ (x.rxNew.isNone = true ∨ x.rxNew = some mask.toNat) then
    lkPut s l { x with ams := nset x.ams logical } else s)
/-- RESTRIPE (R353, R354): a request gives the new mask of the transmit direction, a confirm that of the receive
direction under way. -/
def execCtlRestripe (l : LaneId) (mask : BitVec 16) (confirm : Bool) (cw : CwSeen) (s0 : State) : Out := lkBlock s0 l cw fun s =>
  let x := lkOf s l
  if lkUp s l = false then .next s
  else if confirm then
    .next (if x.rxNew = some mask.toNat then lkPut s l { x with rxConf := true, ams := 0 } else s)
  else if x.txLost = true ∨ mask = 0 then .next (lkLeave s l 1)
  else
    let y := { x with txMask := mask.toNat, txLost := true
                      out := x.out ++ [{ kind := ctlRESTRIPE, val := mask.toNat, bytes := [1] },
                                       { kind := ctlAM, val := mask.toNat }] }
    .next (lkPut s l y)
/-- CAP (R326, R354, R356, R357): a part is kept; the third of the round under way completes it. -/
def execCtlCap (l : LaneId) (round : Fin 16) (part : Fin 16) (bytes : List Byte) (cw : CwSeen) (s0 : State) : Out := lkBlock s0 l cw fun s =>
  let s0 := if lkUp s l = true ∧ round.val = 1 then
      lkRekey s l else s
  if lnIsLead s0 l = false ∨ lnNative s0 l = false ∨ lnState s0 l ≠ 4 ∨ 3 ≤ part.val then .next s0
  else
    let x := lkOf s0 l
    let s1 := lkPut s0 l { x with parts := tset [] x.parts (16 * round + part) bytes }
    let full := fun (t : State) => (List.range 3).all (fun i =>
      !(tget [] (lkOf t l).parts (16 * (lkOf t l).round + i)).isEmpty)
    let s2 := if (lkOf s1 l).round ≠ 0 ∧ full s1 = true then capRound s1 l (lkOf s1 l).round else s1
    .next (fullCheck (if lnState s2 l = 4 ∧ (lkOf s2 l).round = 2 ∧ full s2 = true then capRound s2 l 2 else s2))
/-- ABORT (R347, R363). -/
def execCtlAbort (l : LaneId) (cw : CwSeen) (s0 : State) : Out := lkBlock s0 l cw fun s =>
  .next (if lkUp s l then lkPut s l { lkOf s l with opened := false } else s)
/-- SLEEP (R359): receivers whose RXREQ is STANDBY enter STANDBY. -/
def execCtlSleep (l : LaneId) (cw : CwSeen) (s0 : State) : Out := lkBlock s0 l cw fun s =>
  if lkUp s l = false then .next s
  else
    let ks := (lnLanes s l).filter (fun k => rxReq s k == 1)
    let s1 := ks.foldl (fun t k => lnPutField (lnPutField t k 57 56 1) k 55 55 0) s
    .next (if ks.isEmpty then s1 else lkPut s1 l { lkOf s1 l with rxSleep := true })
/-- LOCK_LOST (R346, R365). -/
def execLockLost (l : LaneId) (s : State) : Out :=
  .next (laneUnlock s l)
/-- LANE_LOSS (R352 to R354). -/
def execLaneLoss (l : LaneId) (logical : Fin 16) (s : State) : Out :=
  .next (if lnIsLead s l then laneLost s l logical else s)
/-- RESTRIPE_ALIGNED (R353): confirmed, and an AM has come on every lane of the new mask. -/
def execRestripeAligned (l : LaneId) (s : State) : Out :=
  let x := lkOf s l
  match x.rxNew with
  | none => .next s
  | some m =>
    .next (if lkUp s l = true ∧ x.rxConf = true ∧ (x.ams &&& m) = m then
      lnPutField (lkPut s l { x with rxNew := none, rxConf := false, opened := false }) l 47 32 m else s)
/-- REPLAY_TIMEOUT (R350). -/
def execReplayTimeout (l : LaneId) (s : State) : Out := .next (if lkUp s l then lkResend s l 0 else s)
/-- NAK_TIMEOUT (R351). -/
def execNakTimeout (l : LaneId) (s : State) : Out :=
  match (lkOf s l).skip with
  | none => .next s
  | some k => .next (if lkUp s l then lkSend s l { kind := ctlNAK, val := k } else s)
/-- ACK_TIMER (R350). -/
def execAckTimer (l : LaneId) (s : State) : Out :=
  .next (if lkUp s l = true ∧ 0 < (lkOf s l).sinceAck then lkAck s l else s)

/-! ### Bring-up -/

/-- DETECT_PROBE (R355): enough lanes with a partner in two consecutive probes. -/
def execDetectProbe (l : LaneId) (found : BitVec 16) (s : State) : Out :=
  if lnIsLead s l = false ∨ lnState s l ≠ 1 ∨ bscan s = true then .next s
  else
    let x := lkOf s l
    let on := (bitsOf (lnWidth s l) (found.toNat &&& lnFull s l)).foldl (fun m i =>
      if fld (laneOf s (l + i)).stat 59 58 = 2 then nset m i else m) 0
    let both := on &&& x.probed
    if lkNeeds s l ≤ popc both then
      .next (lnSetState (lkPut s l { x with probed := 0, txMask := both }) l (if lkTrains s l then 2 else 3))
    else .next (lkPut s l { x with probed := on })
/-- TRAIN_DONE (R339, R355): the lanes trained at both ends go on, with the precoding each end asked for. -/
def execTrainDone (l : LaneId) (mask : BitVec 16) (partnerPre : Bool) (s : State) : Out :=
  if lnIsLead s l = false ∨ lnState s l ≠ 2 then .next s
  else
    let x := lkOf s l
    let m := mask.toNat &&& x.txMask
    if popc m < lkNeeds s l then .next s
    else
      let pam := bitOf (laneOf s l).cfg 59
      let s1 := lkPut s l { x with txMask := m, txPre := pam && partnerPre }
      .next (lnSetState (lnEach s1 l 53 53 (pam && bitOf (laneOf s l).cfg 21).toNat) l 3)
/-- TRAIN_TIMEOUT (R355). -/
def execTrainTimeout (l : LaneId) (s : State) : Out :=
  .next (if lnIsLead s l = true ∧ lnState s l = 2 then lkLeave s l 1 else s)
/-- LOCK_DONE (R355): a native link exchanges capabilities, an Ethernet port is ACTIVE. -/
def execLockDone (l : LaneId) (s : State) : Out :=
  if lnIsLead s l = false ∨ lnState s l ≠ 3 then .next s
  else
    let m := (lkOf s l).txMask
    let s1 := (bitsOf 16 m).foldl (fun t i => lnPutField t (l + i) 55 54 3) s
    if lnNative s l then .next (capStart (lnSetState (lkPut s1 l { lkOf s1 l with tries := 1 }) l 4) l)
    else
      let w := (laneOf s1 l).stat
      .next (fullCheck (lnSetState (lanePut s1 l { laneOf s1 l with stat := setFld (incFld w 31 16) 47 32 m }) l 5))
/-- LOCK_TIMEOUT (R355). -/
def execLockTimeout (l : LaneId) (s : State) : Out :=
  .next (if lnIsLead s l = true ∧ lnState s l = 3 then
    lnSetState s l (if lkTrains s l then 2 else 1) else s)
/-- CAP_TIMEOUT (R355): a new attempt, or TRAIN after the third. -/
def execCapTimeout (l : LaneId) (s : State) : Out :=
  let x := lkOf s l
  if lnIsLead s l = false ∨ lnState s l ≠ 4 then .next s
  else if 3 ≤ x.tries then .next (lkLeave s l 2)
  else .next (capStart (lkPut s l { x with tries := x.tries + 1 }) l)
/-- LANE_RETRAIN: RETRAIN written (R370). -/
def execLaneRetrain (q : QuadId) (lanes : BitVec 4) (s : State) : Out :=
  .next (lnCtlWrite s q (((quadOf s q).ctl &&& fldMask 15 0) ||| BitVec.ofNat 64 (lanes.toNat * 2 ^ 32)))
/-- LANE_POWER_REQUEST: TXREQ and RXREQ written (R358 to R361, R370). -/
def execLanePowerRequest (q : QuadId) (v : Word) (s : State) : Out := .next (lnCtlWrite s q (v &&& fldMask 15 0))
/-- SLEEP_ENTRY (R359). -/
def execSleepEntry (l : LaneId) (s : State) : Out :=
  let x := lkOf s l
  if lkUp s l = true ∧ (lnLanes s l).all (fun k => txReq s k == 1) = true ∧ x.replay.isEmpty = true ∧ x.txSleep = false then
    let s1 := lkSend (lkPut s l { x with txSleep := true }) l { kind := ctlSLEEP }
    .next ((lnLanes s l).foldl (fun t k => lnPutField t k 59 58 1) s1)
  else .next s
/-- RX_SIGNAL_RETURN (R358). -/
def execRxSignalReturn (l : LaneId) (s : State) : Out :=
  let x := lkOf s l
  if lkUp s l = true ∧ x.rxSleep = true then
    .next ((lnLanes s l).foldl (fun t k => if fld (laneOf t k).stat 57 56 = 1 then
      lnPutField (lnPutField t k 57 56 2) k 55 55 1 else t) (lkPut s l { x with rxSleep := false }))
  else .next s
/-- ETH_LINK_FAIL (R341). -/
def execEthLinkFail (l : LaneId) (s : State) : Out :=
  .next (if lnIsLead s l = true ∧ lnMode s l = 1 ∧ 2 ≤ lnState s l ∧ lnState s l ≤ 5 then lkLeave s l 1 else s)

/-! ### The direct fabric path (R342, R343) -/

def strmOf (s : State) (q st : Nat) : Strm := tget {} (quadOf s q).strms st
def strmPut (s : State) (q st : Nat) (x : Strm) : State :=
  quadPut s q { quadOf s q with strms := tset {} (quadOf s q).strms st x }

/-- The reset tree of a stream's clock is asserted (R343). -/
def strmHeld (s : State) (q st : Nat) : Bool := rclkInReset s (16 * q + Config.streamClock q st)

/-- STREAM_TX (R342, R349): a beat of an Ethernet port goes to the line; units of a native frame gather until its last,
one more than the link takes ending the frame with ABORT (R356). -/
def execStreamTx (q : QuadId) (st : Fin 4) (data : List Word) (ctl : BitVec 32) (abort : Bool) (s : State) : Out :=
  let l := lnLead s (4 * q + st)
  if strmHeld s q st = true ∨ lnIsLead s l = false ∨ lnState s l ≠ 5 ∨ l / 4 ≠ q.val then .next s
  else if lnMode s l = 1 then
    if fld (laneOf s l).cfg 20 19 = 1 then .next s
    else
      let x := strmOf s q st
      .next (lkPut (strmPut s q st { x with sent := x.sent ++ [if abort then [] else data ++ [ctl.setWidth 64]] }) l
        { lkOf s l with fromQueue := false })
  else
    let k := l % 4
    let x := strmOf s q k
    let first := ctl.getLsbD 0
    let ty := ctl.toNat / 4 % 256
    let y := if first then { x with txData := data, txType := ty, txOpen := true } else { x with txData := x.txData ++ data }
    if y.txOpen = false then .next s
    else if abort = true ∨ 4 * lkUnits s l < y.txData.length then
      .next (lkSend (strmPut s q k { y with txOpen := false, txData := [] }) l { kind := ctlABORT })
    else if ctl.getLsbD 1 then
      .next (lkOffer (strmPut s q k { y with txOpen := false, txData := [] }) l y.txType
        (y.txData.flatMap (fun w => leBytes 8 w.toNat)))
    else .next (strmPut s q k y)

/-- STREAM_RX (R342, R343, R349): the next unit of the oldest fabric frame delivered, or a beat of an Ethernet port;
discarded and counted while the stream's reset tree is asserted. -/
def execStreamRx (q : QuadId) (st : Fin 4) (data : List Word) (ctl : BitVec 32) (err : Bool) (s : State) : Out :=
  let l := lnLead s (4 * q + st)
  let x := strmOf s q st
  let give := fun (t : State) (d : List Word) (c : BitVec 32) (e : Bool) =>
    if strmHeld s q st then strmPut t q st { x with dropped := x.dropped + 1 }
    else strmPut t q st { x with rxData := d, rxCtl := c, rxErr := e }
  if lnIsLead s l = false ∨ l / 4 ≠ q.val then .next s
  else if lnMode s l = 1 then
    if lnState s l = 5 ∧ bitOf (laneOf s l).cfg 18 = false then .next (give s data ctl err) else .next s
  else
    let y := lkOf s l
    match takeFirst (fun (f : NSent) => fabricType f.ftype) y.got with
    | none => .next s
    | some (f, rest) =>
      let last := decide (f.payload.length ≤ 32)
      let c := BitVec.ofNat 32 ((if y.rxMid then 0 else 1 + 4 * f.ftype) + (if last then 2 else 0))
      let left := if last then rest else { f with payload := f.payload.drop 32 } :: rest
      .next (give (lkPut s l { y with got := left, rxMid := !last }) (wordsOf (f.payload.take 32)) c false)

/-! ### A queue's switches (R373, R375) -/

/-- DMA_KICK: KICK written. -/
def execDmaKick (l : LaneId) (s : State) : Out := .next (lanePut s l { laneOf s l with stalled := false })
/-- DMA_ENABLE: EN written 1. -/
def execDmaEnable (l : LaneId) (s : State) : Out :=
  .next (dqCtlWrite s l (setBit ((laneOf s l).dqCtl &&& fldMask 61 60) 63 true))
/-- DMA_DISABLE: EN written 0. -/
def execDmaDisable (l : LaneId) (s : State) : Out := .next (dqCtlWrite s l ((laneOf s l).dqCtl &&& fldMask 61 60))
/-- LANE_ERR_CLEAR (R373). -/
def execLaneErrClear (l : LaneId) (s : State) : Out := .next (lnErrWrite s l 1)

end Sys2Proof.Machine
end

