-- ==== Sys2Proof/Machine/Loader.lean ====
section
/-! DEFINITION. The commands of the configuration loader: starting and aborting a load, receiving, verifying, the records
of COMMIT and the start-up steps (R376 to R413, R460, R470). -/

namespace Sys2Proof.Machine
open Sys2Proof

/-! ### Shared operations -/

/-- The load under way is aborted (R399). -/
def ldAbort (s : State) : State :=
  if ldState s = 0 then s
  else if ldState s ≤ 3 then ldFail s 0x0E
  else
    let s1 := basteDiscard s
    ldSet { s1 with ld := { s1.ld with stat := setFld s1.ld.stat 47 40 0x0E, cold := 0, area := 0, want := 0, checked := false } } 0

/-- Whether START is refused (R397, R408). -/
def ldRefused (s : State) (src : Nat) : Bool :=
  ldState s != 0 || decide (4 < src) || (src == 2 && !(List.range 8).all (fun l => lnMode s l == 3)) ||
  (src == 4 && modeCode s != 1)

/-- CFG_CTL written (R397, R399, R408): false where START is refused, nothing changing. -/
def cfgCtlWrite (s : State) (v : Word) : Bool × State :=
  let s1 := { s with ld := { s.ld with ctl := v &&& fldMask 35 0 } }
  if bitOf v 63 then
    if ldRefused s (fld v 35 32) then (false, s) else (true, ldBegin s1 (fld v 35 32))
  else if bitOf v 62 then (true, ldAbort s1)
  else (true, s1)

/-- CFG_BASTE written (R411): only in IDLE. -/
def cfgBasteWrite (s : State) (v : Word) : State :=
  if ldState s = 0 then { s with ld := { s.ld with baste := v &&& (fldMask 63 62 ||| fldMask 47 16) } } else s

/-- PNL_REC written (R442): only in IDLE with no recovery under way. -/
def pnlRecWrite (s : State) (v : Word) : State :=
  if ldState s = 0 ∧ s.ld.recs.isEmpty = true then pnlRecSet s v else s

/-- Stream bytes from a source (R376, R398): taken in RECEIVE from the load's own source, DMA frames of the boot link
being counted in FDISC otherwise. -/
def ldData (s : State) (src : Nat) (bytes : List Byte) : State :=
  if ldState s = 1 ∧ src = s.ld.src then
    if s.ld.waitMem = true ∨ s.ld.recs.isEmpty = false ∨ (src = 0 ∧ s.ld.cold = 1 ∧ s.ld.dir.isEmpty = true) then s
    else ldFeed s bytes
  else if src = 2 then lkDiscard s 0
  else s

/-- The owner key hash in the fuses (R556). -/
def ownerHash (s : State) : List Byte :=
  (List.range 6).flatMap (fun i => leBytes 8 (fuseWord s (7 + i)).toNat)

/-- SHA-384 of Q is the owner key hash; skipped where none is present (R383, R555). -/
def ownerOk (s : State) (block : List Byte) : Bool :=
  !bitOf s.sec.state 56 || sha384 (block.take 97) == ownerHash s

/-- The signature block's (r, s) is a signature over header and body under Q, and Q is the owner's (R383). -/
def signedOk (s : State) (bodylen : Nat) : Bool :=
  let block := s.ld.rx.drop (64 + bodylen)
  ownerOk s block && ecdsaOk (block.take 97) (s.ld.rx.take (64 + bodylen)) (beNat ((block.drop 104).take 48)) (beNat ((block.drop 152).take 48))

/-- The configuration key KEYSRC names (R382, R553, R554, R681). -/
def streamKey (s : State) (src : Nat) : Option (BitVec 256) :=
  let ws := if src = 0 then some ((List.range 4).map (fun i => fuseWord s (3 + i))) else slotKey s 0 5
  ws.map (fun x => keyOf (x.flatMap (fun w => leBytes 8 w.toNat)))

/-- The record sequence of the stream held, decrypted where ENC is set (R382); none where its tag fails. -/
def ldPlain (s : State) : Option (List Word) :=
  let h := ldHdr s
  let body := (s.ld.rx.drop 64).take h.bodylen
  if h.enc = false then some (wordsOf body)
  else (streamKey s h.keysrc).bind (fun k =>
    (gcmOpen k (BitVec.ofNat 96 (beNat ((s.ld.rx.drop 24).take 12))) (s.ld.rx.take 64) body).map wordsOf)

/-- A legacy refusal (R460, R463): REASON, FAULT and the pins. -/
def lgMark (s : State) (reason : Nat) : State :=
  let s1 := lgField (lgField (lgField s 19 16 reason) 12 12 1) 3 0 6
  lgDoneSet (lgField s1 5 5 0) false

/-- The checks of a LEGACY record's presence and contents (R468, R470): an ERR code and a REASON, 0 for none. -/
def legacyRecs (s : State) (h : SHdr) (rs : List SRec) : Nat × Nat :=
  let ls := rs.filter (fun r => r.rtype == 6)
  let p1 := nbit h.panels 1
  if modeCode s ≠ 2 then (if ls.isEmpty then (0, 0) else (0x07, 0))
  else
    let hits := rs.any (fun r => (r.rtype == 1 && ((r.frames h.comp).getD []).any (fun f => f.1.p == 1)) ||
      (r.rtype == 4 && (match r.mem h.comp with
        | some m => match memBank m.1 with
          | some n => n / 96 == 1
          | none => ((m.1 - 0x11000000000) / 0x8000) / 120 == 1
        | none => false)))
    if p1 ≠ !ls.isEmpty ∨ (p1 = true ∧ hits = true) ∨ 1 < ls.length then (0x07, 0)
    else match ls with
    | [] => (0, 0)
    | r :: _ =>
      if legacyShape r.data = false then (0x0B, 0)
      else
        let x := lgStream (idAnswer s) (legacySlot s) (legacyBytes r.data) s.lg
        let reason := if x.1 ≠ 0 then x.1 else lgCheck ((regPairs rs).foldl pairApply s) x.2
        (if reason = 0 then 0 else lgErr reason, reason)

/-- What VERIFY finds of a native stream (R381, R383, R385 to R390, R403): an ERR code and a legacy REASON. -/
def ldVerify (s : State) (poisoned : Bool) : Nat × Nat :=
  let h := ldHdr s
  if poisoned then (0x0A, 0)
  else if h.signed = true ∧ signedOk s h.bodylen = false then (0x08, 0)
  else match (ldPlain s).map (fun ws => recAll ws.length ws) with
  | none => (0x09, 0)
  | some none => (0x0B, 0)
  | some (some rs) =>
    if formatOk h.panels h.comp rs = false then (0x0B, 0)
    else if h.enc = false ∧ rs.any (fun r => r.rtype == 5) = true then (0x02, 0)
    else
      let fs := rs.flatMap (fun r => if r.rtype = 1 then (r.frames h.comp).getD [] else [])
      let lg := legacyRecs s h rs
      if lg.1 ≠ 0 then lg
      else if fs.all (fun f => frameOk f.1 f.2 && (f.1.col != 144 ||
          scalesOk ((regPairs rs).foldl pairApply s) f.1 f.2)) = false then (0x0C, 0)
      else if settingOk s h.kind h.comp rs = false then (0x0D, 0)
      else (0, 0)

/-- What R446, R447 and R452 say of a word the translator writes to a frame of P1, the rest being as it chose. A hosting cell runs in
bit mode, its elements 8 to 15 blank, SRVAL of elements 0 to 7 the flip-flops' initial values. Every bank belongs to the panel; one that
hosts a memory runs in ATOMIC mode with CLRREACH 0b00, not from NCLK. No engine has an image. -/
def lgFrameWord (d : List (Nat × Byte)) (a : FAddr) (i : Nat) (w : Word) : Word :=
  if 8 ≤ a.col ∧ a.col < 136 ∧ 2 ≤ a.row ∧ a.row < 14 then
    let y := 16 * a.row + i / 23 - 32
    match i % 23 with
    | 2 | 3 | 5 => 0
    | 4 => (List.range 8).foldl (fun v k =>
        let u := setBit v (8 * k + 6) (Config.mkFlip d [] (a.col - 8) y k)
        if k % 2 = 1 then setBit u (8 * k + 7) false else u) w
    | 6 => (w &&& (fldMask 15 12 ||| fldMask 10 8)) ||| 1
    | _ => w
  else if a.col < 149 then w
  else if i < 3 then w
  else if i < 11 then
    let n := 8 * (a.col - 149) + i - 3
    if (List.range 1152).any (fun m => (Config.memPlace d m).any (fun e => e.1.val == n)) then w &&& ~~~ (fldMask 36 36 ||| fldMask 9 8 ||| 1)
    else w
  else if i < 19 then mkWord [(49, 48, 1), (31, 16, 1)]
  else 0

/-- A frame of the translator. -/
def lgFrame (d : List (Nat × Byte)) (a : FAddr) : List Word :=
  (List.range 368).map (fun i => lgFrameWord d a i ((Config.legacyFrame d a.col a.row).getD i 0))

/-- The four 9-bit lanes of a 36-bit word of a legacy memory, as its bank holds them (R452). -/
def lgLanes (v : BitVec 36) : Word := mkWord ((List.range 4).map (fun j => (16 * j + 8, 16 * j, nfld v.toNat (9 * j + 8) (9 * j))))

/-- The initial contents of memory m go into its bank (R452). -/
def lgMemWrite (d : List (Nat × Byte)) (s : State) (m : Nat) : State :=
  match Config.memPlace d m with
  | none => s
  | some e => bankPut s (96 + e.1.val) ((List.range 512).foldl (fun b w =>
      bankStore b (e.2.val + w) { val := lgLanes (Config.memInit d m w), pois := false }) (bank s (96 + e.1.val)))

/-- The translator's frames, tile images and memory contents of a legacy design go into P1 (R447 to R456, R460), which hosts it from
now on. -/
def legacyWrite (s0 : State) : State :=
  let s := lgRestart { s0 with lg := { s0.lg with hosted := true, plls := (Config.legacyPlls (lgDesign s0.lg)).map (fun e => e.1.val) } }
  let d := lgDesign s.lg
  let addrs := ((List.range 144).flatMap (fun c => (List.range 16).map (fun r => (FAddr.mk 1 c r)))) ++
    (List.range 17).map (fun i => FAddr.mk 1 (144 + i) 0)
  let s1 := addrs.foldl (fun t a => frameWrite t a (lgFrame d a)) s
  (List.range 1152).foldl (lgMemWrite d) s1

/-- A loaded panel starts from blank frames (R389). -/
def panelLoading (s : State) (p : Nat) : State :=
  let s1 := cellsConfigured { lgGone s p with frames := tfilter (fun k => k / 2576 != p) s.frames } p
  let s2 := (List.range 96).foldl (fun t i =>
    let b := bank t (96 * p + i)
    bankPut t (96 * p + i) { b with imgOwn := {}, imgCfg := 0 }) s1
  panelSetState s2 p 3

/-- The receiver cleared for a new stream (R457, R463, R467). -/
def lgClear (l : Legacy) : Legacy :=
  { l with opts := none, device := false, iv := false, finished := false, bytes := 0, frames := [], chain := [], marker := false
           bits := [], raw := [], ck := 0 }

/-- LG_INIT_N is released and the receiver hunts for the start marker (R463); in compatibility mode a load from the pins
is under way from then on, unless another load is (R397). REASON and FAULT stay those of the last load (R467). -/
def lgReady (s : State) : State :=
  let w := (s.lg.stat &&& (fldMask 19 16 ||| fldMask 12 12)) ||| mkWord [(10, 9, 3), (7, 6, legacyMode s), (5, 5, 1), (3, 0, 1)]
  let s1 := { s with lg := { lgClear s.lg with stat := w, progLow := false } }
  if modeCode s1 = 1 ∧ ldState s1 = 0 then
    let s2 := ldBegin s1 4
    ldField { s2 with ld := { s2.ld with area := 1, checked := true, stat := setFld (setFld s2.ld.stat 51 48 0) 37 36 1 } } 31 0 2
  else if modeCode s1 = 2 then lgField (lgField s1 3 0 0) 5 5 0
  else s1

/-- Isolation ends (R415): of every panel of a load at once, of a panel in recovery, and of one put on hold. In
master-serial mode an upset P1 then goes blank and hunts for its stream again (R463, R469). -/
def isolationEnd (s : State) : State :=
  let ps := (List.range 32).filter (fun p => (panelOf s p).iso != 0 && !(panelOf s p).drained)
  let s1 := ps.foldl (fun t p =>
    let u := panelDrained t p
    match (panelOf t p).iso with
    | 1 => panelLoading u p
    | 3 => panelSetState u p 5
    | _ => u) s
  let s2 := if ps.contains 1 = true ∧ (panelOf s 1).iso = 3 ∧ modeCode s = 1 ∧ legacyMode s = 0 then lgReady (panelBlank s1 1) else s1
  if ldState s1 = 3 then { s2 with ld := { s2.ld with isolated := true } } else s2

/-- REG pairs of the boot link's lanes wait for OUT while they run it (R378). -/
def bootPair (s : State) (p : Word × Word) : Bool :=
  match pairReg p.1 with
  | some r => r.kind == RegKind.lnCfg && decide (r.u < 8) && lnMode s r.u == 3
  | none => false

/-- REG pairs of ENG_CTL take effect at WE (R180); those of a panel not in the load are then written. -/
def engPair (p : Word × Word) : Bool :=
  match pairReg p.1 with
  | some r => r.kind == RegKind.engCtl
  | none => false
def engPairs (s : State) : State :=
  (s.ld.regs.filter (fun p => match pairReg p.1 with
    | some r => r.kind == RegKind.engCtl && !(ldPanels s).contains (r.u / 120)
    | none => false)).foldl pairApply { s with ld := { s.ld with regs := s.ld.regs.filter (fun p => !engPair p) } }

/-- COMMIT ends (R391, R393, R419, R427): REG records in order, link secrets, owners, recovery copies, then STARTUP. Those of the boot link's lanes wait for OUT, ENG_CTL's for WE (R180, R378). -/
def commitEnd (s : State) : State :=
  let later := fun (p : Word × Word) => bootPair s p || engPair p
  let late := s.ld.regs.filter later
  let s1 := (s.ld.regs.filter (fun p => !later p)).foldl pairApply s
  let s2 := s1.ld.secrets.foldl (fun (t : State) (e : Nat × List Word) =>
    { t with sec := { t.sec with links := tset [] t.sec.links e.1 e.2 } }) s1
  let s3 := (ldPanels s2).foldl (fun t p => panelCopy (banksPass (cellsConfigured t p) (ldKind t == 2) p) t.ld.trailer p) s2
  let s4 := { s3 with ld := { s3.ld with regs := late, secrets := [] } }
  let s5 := if s4.ld.src = 4 then lgField s4 3 0 4
    else if ldKind s4 = 1 then stageUp s4 13 else if ldKind s4 = 2 then stageUp s4 18 else s4
  ldStartup s5

/-! ### Commands -/

/-- LOAD_START: START written to CFG_CTL (R376, R397, R408). -/
def execLoadStart (init : BitVec 16) (v : Word) (s : State) : Out :=
  .next (if hubGrant s init.toNat then (cfgCtlWrite s (setBit v 63 true)).2 else s)
/-- LOAD_ABORT (R399, R408). -/
def execLoadAbort (init : BitVec 16) (s : State) : Out :=
  .next (if hubGrant s init.toNat then (cfgCtlWrite s (setBit (s.ld.ctl &&& fldMask 35 0) 62 true)).2 else s)
/-- STREAM_DATA (R376). -/
def execStreamData (src : Fin 16) (bytes : List Byte) (s : State) : Out := .next (ldData s src bytes)
/-- BOOT_DIRECTORY_READ (R377): its four offsets, or the loader stops. -/
def execBootDirectoryRead (bytes : List Byte) (s : State) : Out :=
  if ldState s = 1 ∧ s.ld.src = 0 ∧ s.ld.cold = 1 ∧ s.ld.dir.isEmpty = true then
    let w := fun (i : Nat) => leNat ((bytes.drop (8 * i)).take 8)
    if w 0 = 0x5644495239580001 ∧ leNat (bytes.drop 40) = 0 then
      .next { s with ld := { s.ld with
        dir := (List.range 4).map (fun i => w (1 + i)), ctl := setFld s.ld.ctl 31 0 (w 1) } }
    else .next (ldSet { s with ld := { s.ld with cold := 0 } } 0)
  else .next s
/-- BASTE_READY (R392): the wait for the GDDR7 area ends, with NOBASTE where a controller has failed. -/
def execBasteReady (s : State) : Out :=
  if s.ld.waitMem = false then .next s
  else match basteState s with
  | 0 => .next { s with ld := { s.ld with waitMem := false } }
  | 1 => .next s
  | _ => .next (ldFail s 0x05)
/-- BASTE_WAIT_TIMEOUT (R392). -/
def execBasteWaitTimeout (s : State) : Out := .next (if s.ld.waitMem then ldFail s 0x05 else s)
/-- RECEIVE_DONE (R391): the whole stream is in the basting area. -/
def execReceiveDone (s : State) : Out :=
  if ldState s = 1 ∧ s.ld.src ≠ 4 ∧ s.ld.checked = true ∧ s.ld.waitMem = false ∧ s.ld.want ≤ s.ld.rx.length then
    let s1 := ldSet { s with ld := { s.ld with prog := setFld s.ld.prog 31 0 0 } } 2
    .next (if ldKind s = 1 then stageUp s1 11 else if ldKind s = 2 then stageUp (stageUp s1 15) 16 else s1)
  else .next s
/-- VERIFY_DONE (R391, R405, R460): the first check that fails ends the load; COMMIT begins otherwise. -/
def execVerifyDone (poisoned : Bool) (s : State) : Out :=
  if ldState s ≠ 2 ∨ s.ld.recs.isEmpty = false then .next s
  else if s.ld.src = 4 then
    let reason := lgCheck s s.lg
    if reason ≠ 0 then .next (lgMark (ldFail s (lgErr reason)) reason)
    else .next (ldCommit { s with ld := { s.ld with
      body := lgBody s.lg (lgTrailer s.lg) } })
  else
    let r := ldVerify s poisoned
    if r.1 ≠ 0 then
      let s1 := ldFail s r.1
      .next (if r.2 ≠ 0 then lgMark s1 r.2 else s1)
    else
      let s1 := ldCommit { s with ld := { s.ld with body := (ldPlain s).getD [], prog := setFld s.ld.prog 31 0 (min (2 ^ 32 - 1) s.ld.want) } }
      .next (if ldKind s = 1 then stageUp s1 12 else if ldKind s = 2 then stageUp s1 17 else s1)
/-- COMMIT_DONE (R391, R405, R406): a bad read of the basting area ends COMMIT at any point with CMTFAIL. -/
def execCommitDone (readOk : Bool) (s : State) : Out :=
  if ldState s ≠ 3 then .next s
  else if readOk = false then .next (ldFail s 0x0F)
  else if s.ld.isolated = true ∧ s.ld.took = true then .next (commitEnd s)
  else .next s
/-- FRAME_RECORD (R385 to R387, R389). -/
def execFrameRecord (s : State) : Out :=
  match ldNext s 1 with
  | none => .next s
  | some (r, rest) =>
    .next (((r.frames (ldHdr s).comp).getD []).foldl (fun t f => frameWrite t f.1 f.2) (ldTake s r rest))
/-- REG_RECORD (R385, R391): its pairs are applied after every frame and memory. -/
def execRegRecord (s : State) : Out :=
  match ldNext s 3 with
  | none => .next s
  | some (r, rest) => let t := ldTake s r rest; .next { t with ld := { t.ld with regs := t.ld.regs ++ pairs r.data } }
/-- MEM_RECORD (R385, R406, R419): a write that draws an error ends COMMIT with CMTFAIL. -/
def execMemRecord (s : State) : Out :=
  match ldNext s 4 with
  | none => .next s
  | some (r, rest) =>
    match r.mem (ldHdr s).comp with
    | none => .next (ldFail s 0x0F)
    | some m =>
      if memAwake s m.1 = false then .next s
      else
        let w := memWrite (ldTake s r rest) m.1 m.2
        .next (if w.1 then statLoader w.2 m.1 (8 * m.2.length) false else ldFail (statLoader s m.1 (8 * m.2.length) true) 0x0F)
/-- SECRET_RECORD (R325, R385, R391). -/
def execSecretRecord (s : State) : Out :=
  match ldNext s 5 with
  | none => .next s
  | some (r, rest) =>
    let t := ldTake s r rest
    .next { t with ld := { t.ld with secrets := t.ld.secrets ++ [(r.count, r.data)] } }
/-- LEGACY_RECORD (R460, R470): the design is translated again and P1 written. -/
def execLegacyRecord (s : State) : Out :=
  match ldNext s 6 with
  | none => .next s
  | some (r, rest) =>
    let t := ldTake s r rest
    if s.ld.src = 4 then .next (legacyWrite t)
    else
      let x := lgStream (idAnswer s) (legacySlot s) (legacyBytes r.data) s.lg
      let y := { x.2 with bridge := (r.data.drop 1).take 5, stat := setBit (setBit (setBit x.2.stat 11 (lgEnc x.2)) 20 false) 12 false }
      .next (legacyWrite { t with lg := y, ld := { t.ld with regs := t.ld.regs ++ lgPllPairs (lgDesign y) } })
/-- TRAILER_RECORD (R385, R391, R401). -/
def execTrailerRecord (s : State) : Out :=
  match ldNext s 14 with
  | none => .next s
  | some (r, rest) => let t := ldTake s r rest; .next { t with ld := { t.ld with trailer := r.data.headD 0 } }
/-- END_RECORD (R385). -/
def execEndRecord (s : State) : Out :=
  match ldNext s 15 with
  | none => .next s
  | some (r, rest) => let t := ldTake s r rest; .next { t with ld := { t.ld with took := true } }
/-- The load under way brings P1 a legacy design (R460, R470). -/
def lgLoad (s : State) : Bool := s.ld.src == 4 || (modeCode s == 2 && (ldPanels s).contains 1)

/-- The PLLs waited for that have locked show it (R412). -/
def pllsOk (s : State) : State :=
  ((ldPlls s).filter (fun i => pllLocked (pllOf s i))).foldl (fun t i =>
    pllPut t i { pllOf t i with stat := setBit (pllOf t i).stat 63 true }) s

/-- STARTUP_PLL (R400, R404, R412): every PLL the stream configures has locked. -/
def execStartupPll (s : State) : Out :=
  if stepDue s 0 = true ∧ (ldPlls s).all (fun i => pllLocked (pllOf s i)) = true then
    let s1 := pllsOk s
    .next (slotDone s1 0)
  else .next s
/-- STARTUP_OUT (R378, R396, R400, R418). -/
def execStartupOut (s : State) : Out :=
  if stepDue s 1 then
    let s1 := (s.ld.regs.filter (fun p => !engPair p)).foldl pairApply ((ldPanels s).foldl panelOut s)
    let s2 := { s1 with ld := { s1.ld with regs := s1.ld.regs.filter engPair } }
    .next (slotDone (if lgLoad s then lgField s2 10 10 0 else s2) 1)
  else .next s
/-- STARTUP_SR (R102, R400). -/
def execStartupSr (s : State) : Out :=
  if stepDue s 2 then
    let s1 := (ldPanels s).foldl panelSr s
    .next (slotDone (if lgLoad s then lgField s1 9 9 0 else s1) 2)
  else .next s
/-- STARTUP_WE (R142, R180, R400, R419). -/
def execStartupWe (s : State) : Out :=
  .next (if stepDue s 3 then slotDone (engPairs ((ldPanels s).foldl (panelWeBy s.ld.regs) s)) 3 else s)
/-- STARTUP_WAIT_MET (R402, R463): the pin the step waits for holds its level. -/
def execStartupWaitMet (pin : Fin 2) (level : Bool) (s : State) : Out :=
  let w := slotWait s
  if ldState s = 5 ∧ ((w = 1 + pin.val ∧ level = nbit (slotByte s) 3) ∨ (w = 3 ∧ level = true)) then
    .next (ldSet { s with ld := { s.ld with waited := true } } 4)
  else .next s
/-- STARTUP_WAIT_TIMEOUT (R402): the step is taken anyway. -/
def execStartupWaitTimeout (s : State) : Out :=
  if ldState s = 5 ∧ slotWait s ≠ 3 ∧ fld s.ld.trailer 47 32 ≠ 0 then
    .next (ldSet { s with ld := { s.ld with waited := true, stat := setBit s.ld.stat 38 true } } 4)
  else .next s
/-- PLL_STEP_TIMEOUT (R400): the PLL step ends without every lock. -/
def execPllStepTimeout (s : State) : Out := .next (if stepDue s 0 then slotDone (pllsOk s) 0 else s)
/-- SOURCE_ERROR (R405). -/
def execSourceError (s : State) : Out := .next (if ldState s = 1 then ldFail s 0x06 else s)

end Sys2Proof.Machine
end

