-- ==== Sys2Proof/Machine/Panel.lean ====
section
/-! DEFINITION. The commands of panels and of the Darners: isolation, scanning, recovery (R415 to R444, R613). -/

namespace Sys2Proof.Machine
open Sys2Proof

/-! ### Shared operations -/

/-- The recovery at the head of the queue begins (R429, R432). -/
def recoveryStart (s : State) : State :=
  match s.ld.recs with
  | [] => s
  | p :: _ => if (panelOf s p).iso = 2 then s else panelIsolate s 2 6 p

/-- A recovery of a panel is asked for (R428, R432): requests wait in their order. -/
def recoveryAsk (s : State) (p : Nat) : State :=
  if s.ld.recs.contains p then s
  else recoveryStart { s with ld := { s.ld with recs := s.ld.recs ++ [p] } }

/-- The legacy pins of an upset P1 in compatibility mode (R469). -/
def legacyUpset (s : State) : State :=
  lgDoneSet (lgField (lgField s 5 5 0) 19 16 lgUPSET) false

/-- An uncorrectable frame of a RUN or STARTING panel (R428, R469). -/
def panelUpset (s : State) (p : Nat) : State :=
  let x := panelOf s p
  let st := panelState s p
  if st ≠ 1 ∧ st ≠ 4 then s
  else if p = 1 ∧ modeCode s = 1 then legacyUpset (notify (panelIsolate s 3 2 p) (0x2040 + p) 0)
  else if fld x.ctl 1 0 ≠ 1 ∧ bitOf x.stat 59 = true then notify (recoveryAsk s p) (0x2040 + p) 0
  else notify (panelIsolate s 3 2 p) (0x2040 + p) 0

/-- The frames, images and owners of a recovery copy, then the start-up steps of a recovery (R429, R430): the PLL step
returns at once and no pin is waited for. -/
def recoverPanel (s0 : State) (p : Nat) : State :=
  let s := statLoader s0 (panelOf s0 p).copyBase 6851656 false
  let x := panelOf s p
  let base : Tbl (List Word) := tfilter (fun k => k / 2576 != p) s.frames
  let fs := List.foldl (fun (t : Tbl (List Word)) (e : Nat × List Word) => tset [] t e.1 e.2) base x.copy
  let s1 := { s with frames := fs }
  let s2 := (List.range 12).foldl (fun t i =>
    tileImages t p i ((List.range 35).map (tileWord t p i))) s1
  let s3 := rclksSelect (banksPass (cellsConfigured s2 p) false p) p false
  let s4 := panelRun (panelOut (panelSr (panelWe s3 p) p) p) p
  let y := panelOf s4 p
  panelPut s4 p { y with stat := incFld y.stat 47 32 }

/-- The key of frame i of panel p, in address order (R387). -/
def frameAt (p i : Nat) : Nat := 2576 * p + (if i < 2304 then i else 16 * (i - 2160))

/-- The first n frames of a recovery copy written, with the images of the tiles among them (R429, R431). -/
def recoverPart (s0 : State) (p n : Nat) : State :=
  let s := statLoader s0 (panelOf s0 p).copyBase (min 6851656 (64 + 2952 * (n + 1))) false
  let x := panelOf s p
  let mine := fun (k : Nat) => decide (2576 * p ≤ k) && decide (k < frameAt p n)
  let fs := List.foldl (fun (t : Tbl (List Word)) (e : Nat × List Word) => if mine e.1 then tset [] t e.1 e.2 else t)
    (tfilter (fun k => !mine k) s.frames) x.copy
  (List.range (n - 2309)).foldl (fun t i => tileImages t p i ((List.range 35).map (tileWord t p i))) (cellsConfigured { s with frames := fs } p)

/-- The recovery at the head is over, and the next one begins. -/
def recoveryNext (s : State) : State := recoveryStart { s with ld := { s.ld with recs := s.ld.recs.drop 1 } }

/-- DRN_LOG for a frame (R440). -/
def drnLog (ue : Bool) (p col row word : Nat) : Word :=
  mkWord [(63, 63, 1), (62, 62, ue.toNat), (56, 52, p), (51, 44, col), (43, 40, row), (35, 27, word)]

/-- Whether the Darner scans a panel (R414, R425). -/
def scanned (s : State) (p : Nat) : Bool := [0, 1, 4, 5].contains (panelState s p)

def drnNote (s : State) (d : Nat) (force : Bool) : State :=
  if force || bitOf (darnerOf s d).ctl 0 then notify s (0x2060 + d) 0 else s

/-- How often in a row a bit has been corrected (R613): the list with this lap's correction. -/
def hardStep (lap key word bit : Nat) (h : List (Nat × Nat × Nat × Nat × Nat)) : Nat × List (Nat × Nat × Nat × Nat × Nat) :=
  let same := fun (e : Nat × Nat × Nat × Nat × Nat) => e.1 == key && e.2.1 == word && e.2.2.1 == bit
  let n := match h.find? same with
    | some e => if (e.2.2.2.2 + 1) % 65536 = lap then e.2.2.2.1 + 1 else if e.2.2.2.2 = lap then e.2.2.2.1 else 1
    | none => 1
  (n, h.filter (fun e => !same e) ++ [(key, word, bit, n, lap)])

/-- The repair entry of a word-cell column (R620). -/
def columnEntry (p col : Nat) : Word := mkWord [(63, 60, 3), (59, 58, p / 8), (57, 56, p % 4), (55, 48, col)]

/-- The position of the single set bit of a 72-bit word. -/
def flipBit (f : BitVec 72) : Nat := ((List.range 72).find? (fun i => f.getLsbD i)).getD 0
def flipCount (f : BitVec 72) : Nat := ((List.range 72).filter (fun i => f.getLsbD i)).length

/-- A frame with correctable words (R424, R613). -/
def frameCorrect (s : State) (p col row : Nat) (errs : List FrameErr) : State :=
  let d := p / 8
  let x := darnerOf s d
  let log := drnLog false p col row ((errs.headD { word := 0x1FF, flip := 0 }).word)
  let lap := fld x.stat 47 32
  let r := errs.foldl (fun (a : Nat × List (Nat × Nat × Nat × Nat × Nat)) e =>
    let h := hardStep lap (frameKey p col row) e.word (flipBit e.flip) a.2
    (max a.1 h.1, h.2)) (0, x.hard)
  let s1 := darnerPut s d { x with err := satFld x.err 63 48 1, log := log, hard := r.2 }
  let y := panelOf s1 p
  let s2 := panelPut s1 p { y with stat := satFld y.stat 31 16 1 }
  let hard := decide (3 ≤ r.1)
  let s3 := faultLog s2 (if hard then 0x03 else 0x01) p (fld log 63 32)
  let e := columnEntry p col
  let s4 := if hard = true ∧ col < 144 ∧ s3.st.hardCols.contains e = false then
      { s3 with st := { s3.st with hardCols := s3.st.hardCols ++ [e] } } else s3
  drnNote s4 d false

/-- An uncorrectable frame (R424, R428). -/
def frameLost (s : State) (p col row word : Nat) : State :=
  let d := p / 8
  let x := darnerOf s d
  let log := drnLog true p col row word
  let s1 := darnerPut s d { x with err := satFld x.err 47 40 1, log := log }
  let y := panelOf s1 p
  let s2 := panelPut s1 p { y with stat := satFld y.stat 15 8 1 }
  panelUpset (drnNote (faultLog s2 0x02 p (fld log 63 32)) d false) p

/-- DRN_CTL written (R433, R437): laps stop, or start again. -/
def drnCtlWrite (s : State) (d : Nat) (v : Word) : State :=
  let x := darnerOf s d
  let on := bitOf v 63
  darnerPut s d { x with
    ctl := v &&& (fldMask 63 63 ||| fldMask 55 48 ||| fldMask 0 0)
    stat := if on = false then setFld x.stat 63 60 0 else if fld x.stat 63 60 = 0 then setFld x.stat 63 60 3 else x.stat }

/-- DRN_ERR written (R439). -/
def drnErrWrite (s : State) (d : Nat) (v : Word) : State :=
  if bitOf v 0 then darnerPut s d { darnerOf s d with err := 0 } else s

/-- PNL_CTL written (R428, R443). -/
def pnlCtlWrite (s : State) (p : Nat) (v : Word) : State :=
  let s1 := panelPut s p { panelOf s p with ctl := v &&& fldMask 1 0 }
  let st := panelState s p
  if bitOf v 3 = true ∧ bitOf (panelOf s p).stat 59 = true ∧ (st = 1 ∨ st = 5) then recoveryAsk s1 p else s1

/-! ### Commands -/

/-- ISOLATION_DONE (R415). -/
def execIsolationDone (s : State) : Out := .next (isolationEnd s)
/-- SEAM_FREEZE_TIMEOUT (R416). -/
def execSeamFreezeTimeout (p : PanelId) (s : State) : Out :=
  let x := panelOf s p
  .next (if x.iso ≠ 0 ∧ x.drained = false then panelPut s p { x with seam := true, stat := setBit x.stat 58 true } else s)
/-- DARNER_LAP (R423, R433, R438): the lap before is complete; the control frames are checked and the scan begins. -/
def execDarnerLap (d : DieId) (fix : BitVec 3) (noMajority : Bool) (s : State) : Out :=
  let x := darnerOf s d
  if bitOf x.ctl 63 = false then .next s
  else
    let n := if noMajority then 3 else popc fix.toNat
    let w1 := if fld x.stat 63 60 = 2 then setFld (incFld x.stat 47 32) 15 0 0x0A48 else x.stat
    let w2 := setFld w1 63 60 2
    let w3 := if noMajority then setBit w2 57 true else if n ≠ 0 then setBit w2 58 true else w2
    let s1 := darnerPut s d { x with
      stat := w3, err := satFld x.err 39 32 n, ctl := if noMajority then 0x8062000000000000 else x.ctl }
    .next (if noMajority then drnNote s1 d true else s1)
/-- DARNER_FRAME_CHECK (R424, R425, R428). -/
def execDarnerFrameCheck (p : PanelId) (col : Fin 161) (row : Fin 16) (errs : List FrameErr) (crcBad : Bool) (s : State) :
    Out :=
  let x := darnerOf s (p.val / 8)
  if fld x.stat 63 60 ≠ 2 ∨ scanned s p = false ∨ (144 ≤ col.val ∧ row.val ≠ 0) then .next s
  else
    let bad := errs.filter (fun e => e.flip != 0)
    if bad.isEmpty = true ∧ crcBad = false then .next s
    else if crcBad = false ∧ bad.all (fun e => flipCount e.flip == 1) = true then .next (frameCorrect s p col row bad)
    else .next (frameLost s p col row ((bad.headD { word := 0x1FF, flip := 0 }).word))
/-- PANEL_RELOAD: RELOAD written (R428). -/
def execPanelReload (p : PanelId) (s : State) : Out :=
  .next (pnlCtlWrite s p ((panelOf s p).ctl ||| 8))
/-- RECOVERY_DONE (R429, R430). -/
def execRecoveryDone (p : PanelId) (s : State) : Out :=
  if s.ld.recs.head? = some p.val ∧ (panelOf s p).drained = true then .next (recoveryNext (recoverPanel s p))
  else .next s
/-- RECOVERY_FAIL (R431): the frames before the bad one have been rewritten. -/
def execRecoveryFail (p : PanelId) (written : Fin 2321) (s : State) : Out :=
  if s.ld.recs.head? = some p.val ∧ (panelOf s p).drained = true then
    let s1 := recoverPart s p written
    let x := panelOf s1 p
    .next (recoveryNext (panelHold (panelPut s1 p { x with stat := setBit x.stat 57 true }) p))
  else .next s
/-- DARNER_STALL (R435). -/
def execDarnerStall (d : DieId) (s : State) : Out :=
  let x := darnerOf s d
  if bitOf x.ctl 63 = false then .next s
  else
    let s1 := darnerPut s d { x with
      stat := setFld (setBit x.stat 59 true) 63 60 4, err := satFld x.err 31 24 1 }
    .next (drnNote (faultLog s1 0x11 d d) d true)
/-- DARNER_CTL_WRITE (R433, R437). -/
def execDarnerCtlWrite (d : DieId) (v : Word) (s : State) : Out := .next (drnCtlWrite s d v)
/-- DARNER_ERR_CLEAR (R439). -/
def execDarnerErrClear (d : DieId) (s : State) : Out := .next (drnErrWrite s d 1)
/-- PNL_REC_WRITE (R442). -/
def execPnlRecWrite (v : Word) (s : State) : Out := .next (pnlRecWrite s v)

end Sys2Proof.Machine
end

