-- ==== Sys2Proof/Machine/Legacy.lean ====
section
/-! DEFINITION. The commands of MK2140 compatibility: the configuration pins, the blocks of a legacy stream and the legacy
TAP (R446 to R468). -/

namespace Sys2Proof.Machine
open Sys2Proof

/-! ### Shared operations -/

/-- A refusal (R460, R463). -/
def lgRefuse (s : State) (reason : Nat) : State := lgMark (ldFail s (lgErr reason)) reason

/-- Whether the receiver takes blocks now (R457, R463, R468). -/
def lgOpen (s : State) : Bool :=
  modeCode s == 1 && ldState s == 1 && s.ld.src == 4 && bitOf s.lg.stat 5 && !s.lg.finished

/-- A block of a legacy stream arrives (R457 to R460, R468). -/
def lgFeed (s : State) (tag : Nat) (payload : List Byte) : State :=
  if lgOpen s = false then s
  else if secState s = 2 then lgRefuse s lgPOLICY
  else
    let x := lgBlock (idAnswer s) (legacySlot s) tag payload s.lg
    if x.1 ≠ 0 then lgRefuse { s with lg := x.2 } x.1
    else
      let s1 := lgField (lgField { s with lg := { x.2 with marker := true } } 11 11 (lgEnc x.2).toNat) 3 0 2
      let s2 := { s1 with ld := { s1.ld with prog := setFld s1.ld.prog 63 32 s1.lg.bytes } }
      if x.2.finished then ldSet (lgField s2 3 0 3) 2 else s2

/-- The blocks that have come whole in the bytes received (R457). -/
def lgPump : Nat → State → State
  | 0, s => s
  | fuel + 1, s =>
    if lgOpen s = false then s
    else if s.lg.marker = false then
      match s.lg.raw with
      | [] => s
      | b :: t =>
        if b = 0x00 ∨ b = 0xFF then lgPump fuel { s with lg := { s.lg with raw := t, bytes := s.lg.bytes + 1 } }
        else if s.lg.raw.length < 4 then s
        else if s.lg.raw.take 4 = [0xB5, 0x2E, 0x71, 0xC8] then
          lgPump fuel { s with lg := { s.lg with raw := s.lg.raw.drop 4, marker := true, bytes := s.lg.bytes + 4 } }
        else lgRefuse s lgBLOCK
    else
      match s.lg.raw with
      | t :: hi :: lo :: r =>
        let n := hi.toNat * 256 + lo.toNat
        if r.length < n then s
        else lgPump fuel (lgFeed { s with lg := { s.lg with raw := r.drop n } } t.toNat (r.take n))
      | _ => s

/-- A byte from eight bits, the first the most significant (R461). -/
def byteOf (bs : List Bool) : Byte := BitVec.ofNat 8 (bs.foldl (fun a b => 2 * a + b.toNat) 0)

/-- Whole bytes of a bit stream and the bits left over. -/
def bitBytes : Nat → List Bool → List Byte × List Bool
  | 0, bs => ([], bs)
  | fuel + 1, bs =>
    if bs.length < 8 then ([], bs)
    else let r := bitBytes fuel (bs.drop 8); (byteOf (bs.take 8) :: r.1, r.2)

/-- LG_PROG_N falls (R463): a legacy load ends, LG_INIT_N and LG_DONE go low, P1 is isolated. -/
def lgFall (s : State) : State :=
  if modeCode s ≠ 1 then s
  else
    let s1 := if s.ld.src = 4 ∧ ldState s ≠ 0 then ldAbort s else s
    let s2 := lgDoneSet (lgField { s1 with lg := { s1.lg with progLow := true } } 5 5 0) false
    if (panelOf s2 1).iso = 0 then panelIsolate s2 1 2 1 else s2

/-- LG_PROG_N rises (R463): P1 is blank and LG_INIT_N is released. -/
def lgRise (s : State) : State :=
  if s.lg.progLow = false then s
  else
    let s1 := if (panelOf s 1).drained then s else panelDrained s 1
    lgReady (panelBlank s1 1)

/-- The legacy TAP is the one presented (R465, R466). -/
def lgTap (s : State) : Bool := idAnswer s != 0 && !s.lg.toNative

/-- An instruction of the legacy TAP, with what its data register captures (R466). -/
def lgInstr (s : State) (code : Nat) (dr : List Word) : State :=
  if lgTap s then { s with lg := { s.lg with ir := code, dr := dr } } else s

/-- The boundary register's cells as words, cell i in bit i (R466, R591). -/
def boundaryWords (s : State) (n : Nat) : List Word :=
  (List.range ((n + 63) / 64)).map (fun j => BitVec.ofNat 64 ((List.range 64).foldl (fun m i =>
    if tget false s.pins.boundary (64 * j + i) then nset m i else m) 0))

/-- What SEC_STATE shows of keys and of the state to come follows fuses and slots (R550, R555, R568). -/
def secRefresh (s : State) : State :=
  let com := fun (lo n : Nat) => (List.range n).all (fun i => tget false s.sec.commit (lo + i))
  let pend := if com 2 1 && bitOf (fuseWord s 2) 0 then 2 else if com 1 1 && bitOf (fuseWord s 1) 0 then 1 else 0
  let bits := [(57, com 3 4), (56, com 7 6), (55, com 13 4), (54, com 17 4),
    (53, bitOf s.sec.state 53 && bitOf (tget 0 s.sec.bbram 5) 0), (52, bitOf s.sec.state 52 && bitOf (tget 0 s.sec.bbram 9) 0)]
  let w := bits.foldl (fun (x : Word) (b : Nat × Bool) => setBit x b.1 b.2) (setFld s.sec.state 61 60 pend)
  { s with sec := { s.sec with state := w } }

def bbrPut (s : State) (n : Nat) (w : Word) : State := { s with sec := { s.sec with bbram := tset 0 s.sec.bbram n w } }

/-- A BBRAM slot written: V cleared, the wrapped words, V set (R554, R558). -/
def slotWrite (s : State) (base n status : Nat) (key : List Word) : State :=
  let ws := kwWrap kbbr key
  let s1 := bbrPut s status (setBit (tget 0 s.sec.bbram status) 0 false)
  let s2 := (List.range n).foldl (fun t i => bbrPut t (base + i) (ws.getD i 0)) s1
  let s3 := bbrPut s2 status (setBit (tget 0 s2.sec.bbram status) 0 true)
  secRefresh { s3 with sec := { s3.sec with state := setBit s3.sec.state (if status = 5 then 53 else 52) true } }

/-- A BBRAM slot erased (R571). -/
def slotErase (s : State) (base n status : Nat) : State :=
  let s1 := (List.range n).foldl (fun t i => bbrPut t (base + i) 0) s
  secRefresh (bbrPut s1 status (setBit (tget 0 s1.sec.bbram status) 0 false))

/-! ### Commands -/

/-- LG_PROG_FALL (R463). -/
def execLgProgFall (s : State) : Out := .next (lgFall s)
/-- LG_PROG_RISE (R463). -/
def execLgProgRise (s : State) : Out := .next (lgRise s)
/-- DEVICE (R457, R465). -/
def execLgDevice (payload : List Byte) (s : State) : Out := .next (lgFeed s 0x01 payload)
/-- OPTIONS (R457, R459, R462). -/
def execLgOptions (payload : List Byte) (s : State) : Out := .next (lgFeed s 0x02 payload)
/-- IV (R457, R459). -/
def execLgIv (payload : List Byte) (s : State) : Out := .next (lgFeed s 0x03 payload)
/-- FRAMES (R457 to R459). -/
def execLgFrames (payload : List Byte) (s : State) : Out := .next (lgFeed s 0x04 payload)
/-- FINISH (R457, R460, R463). -/
def execLgFinish (s : State) : Out := .next (lgFeed s 0x0F [])
/-- EXTEST of the legacy TAP (R466): the cells of the 288 I/O, which are the first of the native register (R456, R678; log entry 57). -/
def execLgExtest (s : State) : Out := .next (lgInstr s 0x00 (boundaryWords s 864))
/-- SAMPLE/PRELOAD of the legacy TAP (R466). -/
def execLgSamplePreload (s : State) : Out := .next (lgInstr s 0x01 (boundaryWords s 864))
/-- IDCODE of the legacy TAP (R465, R466). -/
def execLgIdcode (s : State) : Out := .next (lgInstr s 0x0C [if idAnswer s = 1 then 0x32140C0D else 0x42140C0D])
/-- LLOAD (R464, R466): TDI bits as the bit stream of R461. -/
def execLload (bits : List Bool) (s : State) : Out :=
  if lgTap s = false then .next s
  else
    let s1 := lgInstr s 0x10 []
    if lgOpen s1 = false then .next s1
    else
      let all := s1.lg.bits ++ bits
      let r := bitBytes all.length all
      .next (lgPump (8 + s1.lg.raw.length + r.1.length) { s1 with lg := { s1.lg with bits := r.2, raw := s1.lg.raw ++ r.1 } })
/-- LSTATUS (R466, R467). -/
def execLstatus (s : State) : Out := .next (lgInstr s 0x11 [lgStatus s])
/-- LCLEAR (R466): a pulse on LG_PROG_N. -/
def execLclear (s : State) : Out := .next (if lgTap s then lgRise (lgFall (lgInstr s 0x12 [])) else s)
/-- LKEY (R466, R551, R560): the legacy slot is written in OPEN, with LOCK clear and TAMPER_N high. -/
def execLkey (key : BitVec 128) (s : State) : Out :=
  if lgTap s = false then .next s
  else
    let s1 := lgInstr s 0x13 [key.setWidth 64, (key >>> 64).setWidth 64]
    if secState s = 0 ∧ secLock s = false ∧ s.sec.tamperLow = false then
      .next (slotWrite s1 6 3 9 [key.setWidth 64, (key >>> 64).setWidth 64])
    else .next s1
/-- LDONE (R466). -/
def execLdone (s : State) : Out := .next (lgInstr s 0x14 [BitVec.ofNat 64 (bitOf s.lg.stat 4).toNat])
/-- LSCAN0 (R466): the chain lies in the legacy design; the TAP connects it. -/
def execLscan0 (s : State) : Out := .next (lgInstr s 0x20 [])
/-- LSCAN1 (R466). -/
def execLscan1 (s : State) : Out := .next (lgInstr s 0x21 [])
/-- NATIVE (R466): the native TAP until the next Test-Logic-Reset. -/
def execLgNative (s : State) : Out :=
  .next (if lgTap s then { s with lg := { s.lg with ir := 0x7E, toNative := true, dr := [] } } else s)
/-- BYPASS of the legacy TAP (R466). -/
def execLgBypass (s : State) : Out := .next (lgInstr s 0xFF [0])

end Sys2Proof.Machine
end

