-- ==== Sys2Proof/Machine/Security.lean ====
section
/-! DEFINITION. The commands of the security engine: fuses, BBRAM slots, tamper inputs, zeroisation, the random source
(R550 to R573). -/

namespace Sys2Proof.Machine
open Sys2Proof

/-! ### Shared operations -/

/-- Who may write FUS_CTL and SEC_BBR (R30, R557): in OWNED and SEALED the object bridge alone. -/
def secWriter (s : State) (init : Nat) : Bool := if secState s = 0 then hubGrant s init else init == 3

/-- Whether a fuse word may be programmed by R551 and R552. -/
def fuseAllowed (s : State) (n : Nat) : Bool :=
  secState s != 2 && (n != 1 || bitOf s.sec.state 56) &&
  (n != 2 || (tget false s.sec.commit 1 && bitOf s.sec.state (if bitOf s.sec.state 58 then 53 else 57)))

/-- Why a program request is refused (R557, R572); 0 where it is not. `repair` says that the repair commit asks. -/
def fuseWhy (s : State) (n : Nat) (repair : Bool) : Nat :=
  if s.sec.vfuse = false then 1
  else if tget false s.sec.commit n then 2
  else if (if repair then decide (32 ≤ n ∧ n < 64) else decide (n ≤ 20)) = false then 3
  else if repair = false ∧ fuseAllowed s n = false then 4
  else if secLock s then 5
  else if bitOf s.sec.fusstat 63 then 7
  else 0

/-- A program request (R557): blowing begins, or ERR and WHY say why not. -/
def fuseGo (s : State) (n : Nat) (w : Word) (repair : Bool) : State :=
  let why := fuseWhy s n repair
  if why = 0 then
    { s with sec := { s.sec with blow := some (n, w), fusstat := setBit s.sec.fusstat 63 true } }
  else { s with sec := { s.sec with fusstat := setFld (setBit s.sec.fusstat 62 true) 61 59 why } }

/-- FUS_CTL written by a writer R557 accepts (R557, R572). -/
def fusCtlWrite (s : State) (v : Word) : State :=
  let s1 := { s with sec := { s.sec with fusctl := v &&& fldMask 7 0 } }
  if bitOf v 63 then fuseGo s1 (fld v 7 0) s1.sec.fusdata false else s1

/-- The next entry of a repair commit goes to the lowest repair word neither committed nor incomplete (R623). -/
def repairNext (s : State) : State :=
  match s.st.todo with
  | [] => { s with st := { s.st with commit := setBit s.st.commit 62 false } }
  | e :: rest =>
    match (List.range 32).find? (fun k => !tget false s.sec.commit (32 + k) && tget 0 s.sec.fuses (32 + k) == 0) with
    | none => { s with st := { s.st with todo := [], commit := setBit (setBit s.st.commit 61 true) 62 false } }
    | some k =>
      let t := fuseGo { s with st := { s.st with todo := rest } } (32 + k) e true
      if t.sec.blow.isSome then t
      else { t with st := { t.st with todo := [], commit := setBit (setBit t.st.commit 60 true) 62 false } }

/-- Programming of a word ends (R538, R557): the bits are blown; the commit bit follows where the read-back matches. -/
def fuseDone (s : State) (ok : Bool) : State :=
  match s.sec.blow with
  | none => s
  | some (n, w) =>
    let old := tget 0 s.sec.fuses n
    let s1 := { s with sec := { s.sec with
      fuses := tset 0 s.sec.fuses n (old ||| w), blow := none, fusstat := setBit s.sec.fusstat 63 false } }
    if ok then
      let s2 := secRefresh { s1 with sec := { s1.sec with
        commit := tset false s1.sec.commit n true, fusstat := incFld s1.sec.fusstat 47 32 } }
      if 32 ≤ n then repairNext { s2 with st := { s2.st with commit := incFld s2.st.commit 47 40 } } else s2
    else
      let s2 := { s1 with sec := { s1.sec with fusstat := setFld (setBit s1.sec.fusstat 62 true) 61 59 6 } }
      if 32 ≤ n then { s2 with st := { s2.st with todo := [], commit := setBit (setBit s2.st.commit 60 true) 62 false } } else s2

/-- Whether a slot write is refused (R551, R560, R571). -/
def slotRefused (s : State) (init : Nat) : Bool :=
  secState s == 2 || !secWriter s init || secLock s || s.sec.tamperLow

/-- The key input words, cleared after each command (R567). -/
def keyinClear (s : State) : State := { s with sec := { s.sec with keyin := [0, 0, 0, 0] } }
def bbrErr (s : State) : State := { s with sec := { s.sec with bbr := setBit s.sec.bbr 59 true } }

/-- A command of SEC_BBR (R571). -/
def bbrCmd (s : State) (init cmd : Nat) : State :=
  match cmd with
  | 1 => keyinClear (if slotRefused s init then bbrErr s else slotWrite s 0 5 5 s.sec.keyin)
  | 2 => keyinClear (if slotRefused s init then bbrErr s else slotWrite s 6 3 9 (s.sec.keyin.take 2))
  | 3 => keyinClear (if secWriter s init then slotErase s 0 5 5 else bbrErr s)
  | 4 => keyinClear (if secWriter s init then slotErase s 6 3 9 else bbrErr s)
  | 5 => keyinClear (if secWriter s init then secRefresh { s with sec := { s.sec with bbram := [] } } else bbrErr s)
  | _ => s

/-- SEC_BBR written (R571); a clear of TAMPL tells that the pin is high again (log entry 17). -/
def bbrWrite (s : State) (init : Nat) (v : Word) : State :=
  let s1 := { s with sec := { s.sec with
    bbr := s.sec.bbr &&& ~~~ (v &&& fldMask 59 57), tamperLow := s.sec.tamperLow && !bitOf v 58 } }
  if bitOf v 63 then bbrCmd s1 init (fld v 62 60) else s1

/-- 256 bits drawn from the TRNG: free values (log entry 5). -/
def trngKey (free : Nat) : BitVec 256 :=
  Config.freeWord free ++ Config.freeWord (free + 1) ++ Config.freeWord (free + 2) ++ Config.freeWord (free + 3)

/-- A key the TRNG draws for the guards (R301, R561): none while the DRBG gives no output. -/
def drawKey (s : State) : State :=
  if bitOf s.sec.state 51 then
    bump { s with sec := { s.sec with memKey := some (trngKey s.fresh) } } 4
  else { s with sec := { s.sec with memKey := none } }

/-- What both wide zeroisations erase (R565). -/
def zeroErase (s : State) : State :=
  let s0 := if ldState s ≠ 0 then ldAbort s else s
  let s1 := (List.range 32).foldl panelBlank { s0 with ld := { s0.ld with recs := [] } }
  let s2 := { s1 with
    ld := { s1.ld with stat := setFld s1.ld.stat 59 56 0, cold := 0 }
    banks := tmap {} (fun _ (b : Bank) => { bankClear b with spare := [] }) s1.banks
    engines := tmap {} (fun _ (x : Engine) => { x with dm := [], pm := [], raq := [], vb := [] }) s1.engines
    sec := { s1.sec with memKey := none, links := [] } }
  let s3 := (List.range 128).foldl (fun t l => if lnIsLead t l = true ∧ lnMode t l = 2 ∧ (lkOf t l).keys.isSome = true then
    lkLeave t l 1 else t) s2
  slotErase (slotErase s3 0 5 5) 6 3 9

/-- A zeroisation completes (R565, R566, R582): everything in its scope is erased and ZPEND clears; after a debug
zeroisation a new K is drawn, the guards reinitialise and the level asked for is granted. -/
def zeroDone (s : State) : State :=
  let s1 := zeroErase s
  let s2 := bbrPut s1 5 (setBit (tget 0 s1.sec.bbram 5) 1 false)
  let s3 := { s2 with sec := { s2.sec with
    zscope := 0, bbr := setBit s2.sec.bbr 56 false, state := setBit s2.sec.state 50 false } }
  if nbit s.sec.zscope 0 then
    let s4 := drawKey s3
    let s5 := { s4 with guards := tmap {} (fun _ (g : Guard) => { grdSet g 0 with key := none }) s4.guards }
    if bitOf s5.dbg.ctl 59 then
      { s5 with dbg := { s5.dbg with ctl := setFld (setBit s5.dbg.ctl 59 false) 63 62 2 } }
    else s5
  else s3

/-! ### Commands -/

/-- FUSE_PROGRAM: GO written to FUS_CTL (R557). -/
def execFuseProgram (init : BitVec 16) (s : State) : Out :=
  .next (if secWriter s init.toNat then fusCtlWrite s (setBit s.sec.fusctl 63 true) else s)
/-- FUSE_PROGRAM_DONE (R538, R557, R623). -/
def execFuseProgramDone (readBackOk : Bool) (s : State) : Out := .next (fuseDone s readBackOk)
/-- BBR_WRITE_CK (R571). -/
def execBbrWriteCk (init : BitVec 16) (s : State) : Out := .next (if hubGrant s init.toNat then bbrCmd s init.toNat 1 else s)
/-- BBR_WRITE_LK (R571). -/
def execBbrWriteLk (init : BitVec 16) (s : State) : Out := .next (if hubGrant s init.toNat then bbrCmd s init.toNat 2 else s)
/-- BBR_ERASE_CK (R571). -/
def execBbrEraseCk (init : BitVec 16) (s : State) : Out := .next (if hubGrant s init.toNat then bbrCmd s init.toNat 3 else s)
/-- BBR_ERASE_LK (R571). -/
def execBbrEraseLk (init : BitVec 16) (s : State) : Out := .next (if hubGrant s init.toNat then bbrCmd s init.toNat 4 else s)
/-- BBR_ERASE_ALL (R571). -/
def execBbrEraseAll (init : BitVec 16) (s : State) : Out := .next (if hubGrant s init.toNat then bbrCmd s init.toNat 5 else s)
/-- TAMPER_PIN (R560): with TAMPEN set, all 512 words are zeroised and TAMPL is latched; TAMPIN is raised unless VAON is
absent, as it is in an episode of reach POWER-ON. -/
def execTamperPin (s : State) : Out :=
  if bitOf (fuseWord s 0) 15 then
    let s1 := secRefresh { s with sec := { s.sec with
      bbram := [], tamperLow := true, bbr := setBit s.sec.bbr 58 true } }
    .next (if s.rst.active = true ∧ s.rst.eff = 6 then s1 else alarms s1 [8])
  else .next s
/-- VOLTAGE_GLITCH (R562). -/
def execVoltageGlitch (s : State) : Out := .next (alarms s [9])
/-- CLOCK_GLITCH (R562). -/
def execClockGlitch (s : State) : Out := .next (alarms s [10])
/-- ZEROISATION_DONE (R565, R566, R582). -/
def execZeroisationDone (s : State) : Out := .next (if s.sec.zscope = 0 then s else zeroDone s)
/-- TRNG_HEALTH_FAIL (R561). -/
def execTrngHealthFail (s : State) : Out :=
  .next (if bitOf s.sec.state 51 then
    alarms { s with sec := { s.sec with state := setBit s.sec.state 51 false } } [6] else s)
/-- TRNG_READ (R561): 32 bytes of the DRBG. -/
def execTrngRead (s : State) : Out :=
  .next (if bitOf s.sec.state 51 then
    bump { s with sec := { s.sec with drawn := trngBytes s.fresh 32 } } 4 else s)

end Sys2Proof.Machine
end

