-- ==== Sys2Proof/Machine/Debug.lean ====
section
/-! DEFINITION. The debug port: the native TAP's instructions, access levels and tokens, engine and panel run control,
cross-trigger, trace (R574 to R605). The debug access master and the virtual terminal are in Dap. -/

namespace Sys2Proof.Machine
open Sys2Proof

/-! ### Shared operations -/

/-- DBG_CTL.LVL (R599). -/
def dbgLevel (s : State) : Nat := fld s.dbg.ctl 63 62

/-- The TAP presented is the native one (R466, R574). -/
def nativeTap (s : State) : Bool := !lgTap s

/-- An instruction of the native TAP, with what its data register captures (R575). Taking the pins, it takes the lanes
from their ports and links, which start again at DETECT afterwards (R366, R577). -/
def tapGo (s : State) (code : Nat) (dr : List Word) : State :=
  if nativeTap s = false then s
  else
    let t := { s with dbg := { s.dbg with ir := code, tdo := dr } }
    if bscan s = false ∧ bscan t = true then
      (List.range 128).foldl (fun u l => if lnIsLead u l = true ∧ lnState u l ≠ 0 then lkLeave u l 1 else u) t
    else t

/-- An instruction that the level does not allow acts as BYPASS until it does (R575, R578). -/
def tapAt (s : State) (level code : Nat) (dr : List Word) : State :=
  if level ≤ dbgLevel s then tapGo s code dr else tapGo s code [0]

/-- A level is granted (R579). -/
def levelGrant (s : State) (n : Nat) : State :=
  { s with dbg := { s.dbg with ctl := setFld s.dbg.ctl 63 62 n, req := 0 } }

/-- The debug zeroisation starts for FULL (R579, R582). -/
def levelZero (s : State) : State :=
  let t := zeroStart s 1
  { t with dbg := { t.dbg with ctl := setBit t.dbg.ctl 59 true, req := 0 } }

/-- REQ written (R579): lower levels at once, higher ones by the security state; LOCK refuses them. -/
def levelReq (s : State) (n : Nat) : State :=
  if n = 3 then s
  else if n ≤ dbgLevel s then levelGrant s n
  else if secLock s then s
  else match secState s with
    | 0 => levelGrant s n
    | 1 => if n = 2 then levelZero s else { s with dbg := { s.dbg with req := n } }
    | _ => { s with dbg := { s.dbg with req := n } }

/-- DBG_CTL written (R599). -/
def dbgCtlTable : List Field := [⟨58, 58, .w1c⟩, ⟨53, 53, .rw⟩]
def dbgCtlWrite (s : State) (v : Word) : State :=
  levelReq { s with dbg := { s.dbg with ctl := writeTab dbgCtlTable s.dbg.ctl v } } (fld v 61 60)

/-- A token is submitted at Update-DR (R579 to R581): it takes the current challenge with it. -/
def tokenTake (s : State) (bytes : List Byte) : State :=
  let ok := bitOf s.sec.state 51 && s.dbg.chal.length == 32 && (bytes.drop 8).take 32 == s.dbg.chal
  { s with dbg := { s.dbg with tokens := s.dbg.tokens ++ [(ok, bytes)], chal := [] } }

/-- A token is valid for what is requested (R581). -/
def tokenValid (s : State) (ok : Bool) (b : List Byte) : Bool :=
  let q := (b.drop 40).take 97
  ok && decide (s.dbg.req ≤ leNat (b.take 1)) && sha384 q == ownerHash s &&
  ecdsaOk q (b.take 40) (beNat ((b.drop 144).take 48)) (beNat ((b.drop 192).take 48))

/-- The oldest token is decided (R579, R581, R582). -/
def tokenDecide (s : State) : State :=
  match s.dbg.tokens with
  | [] => s
  | (ok, b) :: rest =>
    let t := { s with dbg := { s.dbg with tokens := rest } }
    if tokenValid s ok b then
      if s.dbg.req = 0 ∨ secLock s = true then { t with dbg := { t.dbg with req := 0 } }
      else if s.dbg.req = 2 then levelZero t
      else levelGrant t s.dbg.req
    else
      let n := min 15 (fld s.dbg.ctl 57 54 + 1)
      let t1 := { t with dbg := { t.dbg with ctl := setFld (setBit t.dbg.ctl 58 true) 57 54 n, req := 0 } }
      if n = 8 ∧ fld s.dbg.ctl 57 54 = 7 then alarms t1 [11] else t1

/-- DBG_ECTLe written (R600): halt, or one step of a halted engine (R589). -/
def debugStepGo (s : State) (e : Nat) : State :=
  let x := eng s e
  if x.st = .halted then engPut s e { x with st := .running, stepping := true, hcause := 0 } else s
def ectlWrite (s : State) (e : Nat) (v : Word) : State :=
  let s1 := if bitOf v 0 then engHaltBy s e 8 else s
  if bitOf v 1 then debugStepGo s1 e else s1

/-- DBG_XTCH written (R591, R605): what fires is a firing over the new masks. -/
def xtchTable : List Field := [⟨63, 48, .w1c⟩, ⟨47, 32, .rw⟩, ⟨31, 16, .rw⟩]
def xtchWrite (s : State) (v : Word) : State :=
  fireChannels { s with dbg := { s.dbg with xtch := writeTab xtchTable s.dbg.xtch v } } (fld v 15 0)

/-- A panel's clocks start again (R594). -/
def panelGo (s : State) (p : Nat) : State :=
  { s with dbg := { s.dbg with xtp := tset 0 s.dbg.xtp p (setBit (tget 0 s.dbg.xtp p) 63 false) } }

/-- DBG_XTPp written (R604). -/
def xtpTable : List Field := [⟨61, 61, .w1c⟩, ⟨15, 0, .rw⟩]
def xtpWrite (s : State) (p : Nat) (v : Word) : State :=
  let t := { s with dbg := { s.dbg with xtp := tset 0 s.dbg.xtp p (writeTab xtpTable (tget 0 s.dbg.xtp p) v) } }
  if bitOf v 16 then panelGo t p else t

/-- DBG_TRCd written (R605): EN written 1 empties the ring and restarts T. -/
def trcTable : List Field := [⟨63, 63, .rw⟩, ⟨62, 62, .w1c⟩, ⟨11, 0, .rw⟩]
def trcWrite (s : State) (d : Nat) (v : Word) : State :=
  let t := trcOf s d
  let w := writeTab trcTable t.reg v
  if bitOf v 63 then trcPut s d { reg := w, ring := [], t0 := (eng s (fld w 11 0)).cyc } else trcPut s d { t with reg := w }

/-- The oldest trace record is removed and captured; zero where there is none (R597). -/
def traceTake (s : State) (d : Nat) : State :=
  let t := trcOf s d
  match t.ring with
  | [] => tapGo s 0x014 [0]
  | w :: rest => if nativeTap s then tapGo (trcPut s d { t with ring := rest }) 0x014 [w] else s

/-- A panel stop is forced (R593): the reservations of the port's initiator are cleared. -/
def lockForce (s : State) (p q : Nat) : State :=
  let w := tget 0 s.dbg.xtp p
  let i := 0x2000 + 64 * p + q
  if bitOf w 62 = true ∧ s.banks.any (fun b => b.2.resv.any (fun r => r.req == i)) = true then
    { s with
      banks := tmap {} (fun _ (b : Bank) => { b with resv := b.resv.filter (fun r => r.req != i) }) s.banks
      dbg := { s.dbg with xtp := tset 0 s.dbg.xtp p (setBit (setBit (setBit w 62 false) 61 true) 63 true) } }
  else s

/-- Bytes of a bit string, bit 0 of each first, and the bits left over. -/
def bytesLsb : Nat → List Bool → List Byte × List Bool
  | 0, bs => ([], bs)
  | fuel + 1, bs =>
    if bs.length < 8 then ([], bs)
    else
      let r := bytesLsb fuel (bs.drop 8)
      (BitVec.ofNat 8 ((bs.take 8).foldr (fun b a => 2 * a + b.toNat) 0) :: r.1, r.2)

/-- CFGIN (R376, R575): stream bits as source 1, the bits of an incomplete byte kept for the next scan. -/
def cfgIn (s : State) (bits : List Bool) : State :=
  if nativeTap s = false then s
  else
    let all := s.dbg.cfgBits ++ bits
    let r := bytesLsb all.length all
    let t := tapGo s 0x015 []
    ldData { t with dbg := { t.dbg with cfgBits := r.2 } } 1 r.1

/-- The words of frame i of panel p, in address order (R387 to R389). -/
def frameImage (s : State) (p i : Nat) : List Word :=
  let col := if i < 2304 then i / 16 else 144 + (i - 2304)
  (List.range 368).map (frameWord s p col (if i < 2304 then i % 16 else 0))

/-- Configuration readback (R551, R575, R578): every frame of every panel, in address order. -/
def cfgReadback (s : State) : State :=
  if dbgLevel s = 2 ∧ secState s ≠ 2 then tapGo s 0x016 ((List.range (32 * 2321)).flatMap (fun n => frameImage s (n / 2321) (n % 2321)))
  else tapGo s 0x016 [0]

/-- What the TAP loads at Capture-IR (R574), and what the legacy one does (R466): bit 5 LG_DONE, bit 4 LG_INIT_N. -/
def irCapture (s : State) : Nat := 1 + 4 * dbgLevel s + 16 * secState s + 64 * (bitOf s.sec.state 50).toNat
def lgIrCapture (s : State) : Nat := 5 + 32 * (bitOf s.lg.stat 4).toNat + 16 * (bitOf s.lg.stat 5).toNat

/-! ### Commands -/

/-- TAP_RESET (R466, R574): the TAP logic alone; NATIVE ends. -/
def execTapReset (s : State) : Out :=
  .next { s with
    dbg := { s.dbg with ir := 2, tdo := [], cfgBits := [] }, lg := { s.lg with ir := 0x0C, toNative := false, dr := [] } }
/-- EXTEST (R577). -/
def execTapExtest (s : State) : Out := .next (tapGo s 0x000 (boundaryWords s 3716))
/-- SAMPLE/PRELOAD (R577). -/
def execTapSamplePreload (s : State) : Out := .next (tapGo s 0x001 (boundaryWords s 3716))
/-- IDCODE (R576). -/
def execTapIdcode (s : State) : Out := .next (tapGo s 0x002 [0x1094F4A3])
/-- EXTEST_PULSE (R366, R577). -/
def execTapExtestPulse (s : State) : Out := .next (tapGo s 0x003 (boundaryWords s 3716))
/-- EXTEST_TRAIN (R366, R577). -/
def execTapExtestTrain (s : State) : Out := .next (tapGo s 0x004 (boundaryWords s 3716))
/-! ### User I/O (R396, R577, R661, R662, R678) -/

/-- The home panel of user I/O i, numbered as the boundary register takes them: HV banks 0 to 6, then HP banks 0 to 15. -/
def ioHome (i : Nat) : Nat :=
  if i < 300 then 1 else
    let b := (i - 300) / 48
    8 * (b / 4) + 4 * (b / 4 / 2) + b % 4

/-- User I/O i is high-impedance with the weak pull: its home panel is blank, or under load and not yet at OUT; HP bank 1 and
HV6 wherever P1 is the compatibility window, HV6 being the legacy configuration pins in compatibility mode. -/
def ioHeld (s : State) (i : Nat) : Bool :=
  let x := panelOf s (ioHome i)
  fld x.stat 63 60 == 0 || (x.iso == 1 && !x.out) ||
    (modeCode s != 0 && decide (348 ≤ i ∧ i < 396)) || (modeCode s == 2 && decide (288 ≤ i ∧ i < 300))

/-- Whether the fabric has control of user I/O i: not while it is held, nor while EXTEST, EXTEST_PULSE, EXTEST_TRAIN or HIGHZ is
in force. -/
def ioFabric (s : State) (i : Nat) : Bool :=
  !ioHeld s i && !(nativeTap s && [0x000, 0x003, 0x004, 0x005].contains s.dbg.ir)

/-- HIGHZ (R575, R577). -/
def execTapHighz (s : State) : Out := .next (tapGo s 0x005 [0])
/-- DBGCTL (R575): capture reads DBG_CTL. -/
def execTapDbgctl (s : State) : Out := .next (tapGo s 0x010 [s.dbg.ctl])
/-- DBGCHAL (R579): a fresh challenge, where the TRNG gives one. -/
def execTapDbgchal (s : State) : Out :=
  if nativeTap s = false then .next s
  else
    let c := if bitOf s.sec.state 51 then trngBytes s.fresh 32 else []
    let t := tapGo s 0x011 (wordsOf c)
    .next (bump { t with dbg := { t.dbg with chal := c } } 4)
/-- DBGTOKEN (R580, R581). -/
def execTapDbgtoken (bytes : List Byte) (s : State) : Out :=
  .next (if nativeTap s then tokenTake (tapGo s 0x012 []) bytes else s)
/-- TOKEN_DECISION (R581, R582). -/
def execTokenDecision (s : State) : Out := .next (tokenDecide s)
/-- LEVEL_REQUEST (R579). -/
def execLevelRequest (req : Fin 4) (s : State) : Out := .next (levelReq s req)
/-- What the DAP's data register captures (R583). -/
def dapWords (s : State) : List Word :=
  let x := s.dbg.dapData
  [mkWord [(63, 6, x.toNat), (5, 5, 0), (4, 4, s.dbg.dapBusy.toNat), (3, 3, s.dbg.dapPois.toNat), (2, 1, s.dbg.dapRes)],
   mkWord [(5, 0, x.toNat >>> 58), (53, 6, s.dbg.dapAddr), (55, 54, s.dbg.dapCmd)]]
/-- DAP (R575, R583). -/
def execTapDap (s : State) : Out := .next (tapAt s 1 0x013 (dapWords s))
/-- TRACE (R578, R597). -/
def execTapTrace (d : DieId) (s : State) : Out :=
  .next (if 1 ≤ dbgLevel s then traceTake s d else tapGo s 0x014 [0])
/-- CFGIN (R376, R575). -/
def execTapCfgin (bits : List Bool) (s : State) : Out := .next (cfgIn s bits)
/-- CFGRD (R551, R575). -/
def execTapCfgrd (s : State) : Out := .next (cfgReadback s)
/-- OBJ (R575, R632): the byte pipe of the object bridge is connected. -/
def execTapObj (s : State) : Out := .next (tapGo s 0x018 [])
/-- BYPASS (R575). -/
def execTapBypass (s : State) : Out := .next (tapGo s 0x3FF [0])
/-- DEBUG_HALT (R586, R600). -/
def execDebugHalt (e : EngId) (s : State) : Out := .next (engHaltBy s e 8)
/-- DEBUG_STEP (R589). -/
def execDebugStep (e : EngId) (s : State) : Out := .next (debugStepGo s e)
/-- XTRIG_FIRE (R591, R592, R605). -/
def execXtrigFire (mask : BitVec 16) (s : State) : Out := .next (fireChannels s mask.toNat)
/-- XTRIG_PIN (R591). -/
def execXtrigPin (s : State) : Out := .next (fireChannels s (fld s.dbg.xtch 31 16))
/-- LOCK_DEFER_TIMEOUT (R593). -/
def execLockDeferTimeout (p : PanelId) (q : Fin 64) (s : State) : Out := .next (lockForce s p q)
/-- PANEL_RESUME (R594). -/
def execPanelResume (p : PanelId) (s : State) : Out := .next (panelGo s p)
/-- TRACE_ENABLE (R597, R605). -/
def execTraceEnable (d : DieId) (v : Word) (s : State) : Out := .next (trcWrite s d (setBit v 63 true))

end Sys2Proof.Machine
end

