-- ==== Sys2Proof/Machine/SelfTest.lean ====
section
/-! DEFINITION. The orderly shutdown, its self-test, the repair record and its application, wire swaps and the repair
commit (R542 to R544, R606 to R628). -/

namespace Sys2Proof.Machine
open Sys2Proof

/-! ### CRC-32C (R422) -/

/-! ### The repair record (R617 to R621) -/

/-- Copy 0 (A) or 1 (B) in BBRAM. -/
def recCopy (s : State) (c : Nat) : List Word := (List.range 247).map (fun i => tget 0 s.sec.bbram (17 + 247 * c + i))
def recCrc (ws : List Word) : Nat := crc32c ((ws.take 246).flatMap (fun w => leBytes 8 w.toNat))
def recValid (ws : List Word) : Bool :=
  fld (ws.headD 0) 63 48 == 0x5250 && bitOf (ws.headD 0) 31 && fld (ws.getD 246 0) 31 0 == recCrc ws
def recEntries (ws : List Word) : List Word := ((ws.drop 9).take (min 237 (fld (ws.headD 0) 15 8)))
/-- The copy ACT names. -/
def recAct (s : State) : Nat := (bitOf (tget 0 s.sec.bbram 16) 62).toNat
/-- The copy that is used (R618): the one ACT names, else the other; none where neither is valid. -/
def recUsed (s : State) : List Word :=
  let a := recCopy s (recAct s)
  let b := recCopy s (1 - recAct s)
  if recValid a then a else if recValid b then b else []

def entType (e : Word) : Nat := fld e 63 60
/-- The entry of a die-to-die spare (R620). -/
def wireEntry (c g sp w : Nat) : Word := mkWord [(63, 60, 4), (59, 57, c), (55, 48, g), (47, 47, sp), (46, 40, w)]
/-- The free spare of a group of wires, lowest first. -/
def freeSpare (s : State) (c g : Nat) : Option Nat :=
  (List.range 2).find? (fun sp => !(tget [] s.st.spares (256 * c + g)).any (fun x => x % 2 == sp))
def wireDone (s : State) (c g w : Nat) : Bool := (tget [] s.st.spares (256 * c + g)).any (fun x => x / 2 == w)
def spareTake (s : State) (c g sp w : Nat) : State :=
  { s with st := { s.st with spares := tset [] s.st.spares (256 * c + g) (tget [] s.st.spares (256 * c + g) ++ [2 * w + sp]) } }
/-- The array row spare row `sp` of a bank replaces (R226). -/
def spareRow (b : Bank) (sp : Nat) : Option Nat :=
  if bitOf b.repair (49 + 8 * sp) then some (fld b.repair (48 + 8 * sp) (42 + 8 * sp)) else none

/-- A repair entry is applied, or ignored where R621 says so: none. -/
def entApply (s : State) (e : Word) : Option State :=
  let n := fld e 59 48
  match entType e with
  | 1 =>
    let sp := fld e 47 47
    let row := fld e 46 40
    let b := bank s n
    if 3072 ≤ n ∨ (spareRow b sp).isSome = true ∨ spareRow b (1 - sp) = some row then none
    else some (bankPut s n { b with
      repair := setFld (setBit b.repair (49 + 8 * sp) true) (48 + 8 * sp) (42 + 8 * sp) row })
  | 2 =>
    let k := fld e 47 46
    let a := fld e 44 32
    let b := bank s n
    if 3072 ≤ n ∨ bitOf (tget 0 b.remap k) 63 = true ∨ (remapOf b a).isSome = true ∨ spareRow b 0 = some (a / 64) ∨
        spareRow b 1 = some (a / 64) then none
    else some (bankPut s n { b with remap := tset 0 b.remap k (mkWord [(63, 63, 1), (59, 58, 2), (12, 0, a)]) })
  | 3 =>
    if 144 ≤ fld e 55 48 ∨ s.st.cols.any (fun c => fld c 59 56 == fld e 59 56) = true then none
    else some { s with st := { s.st with cols := s.st.cols ++ [e] } }
  | 4 =>
    let c := fld e 59 57
    let g := fld e 55 48
    let sp := fld e 47 47
    let w := fld e 46 40
    if 6 ≤ c ∨ (tget [] s.st.spares (256 * c + g)).any (fun x => x % 2 == sp) = true ∨ wireDone s c g w = true then none
    else some (spareTake s c g sp w)
  | _ => none

/-- A list of entries in order: the state, how many were applied and how many ignored. -/
def entsApply (s : State) (es : List Word) : State × Nat × Nat :=
  es.foldl (fun (a : State × Nat × Nat) e =>
    match entApply a.1 e with
    | some t => (t, a.2.1 + 1, a.2.2)
    | none => (a.1, a.2.1, a.2.2 + 1)) (s, 0, 0)

/-- Fuse repair, then the record (R536, R621, R627). -/
def repairApply (s : State) : State :=
  let fuses := ((List.range 32).filter (fun k => tget false s.sec.commit (32 + k))).map (fun k => tget 0 s.sec.fuses (32 + k))
  let f := entsApply s fuses
  let r := recUsed f.1
  let x := entsApply f.1 (recEntries r)
  let ign := min 255 (f.2.2 + x.2.2)
  let h := r.headD 0
  let st := if r.isEmpty then mkWord [(39, 32, ign)]
    else mkWord [(63, 60, 1), (59, 48, fld h 43 32), (47, 40, fld h 15 8), (39, 32, ign), (31, 31, (bitOf h 30).toNat)]
  let t := x.1
  { t with
    st := { t.st with record := r, stat := st, results := if r.isEmpty then t.st.results else (r.drop 1).take 8 }
    rst := { t.rst with state := setBit (setBit t.rst.state 49 (f.2.1 != 0)) 48 (x.2.1 != 0) } }

/-- Whether the quick start checks run (R622). -/
def quickDue (s : State) : Bool := (recUsed s).isEmpty || bitOf (tget 0 s.sec.bbram 16) 63

/-- The entries the banks give (R620): remap entries with SRC 1 or 3. -/
def bankEntries (s : State) : List Word :=
  s.banks.flatMap (fun (b : Nat × Bank) => (List.range 4).filterMap (fun k =>
    let w := tget 0 b.2.remap k
    if bitOf w 63 = true ∧ (fld w 59 58 = 1 ∨ fld w 59 58 = 3) then
      some (mkWord [(63, 60, 2), (59, 48, b.1), (47, 46, k), (44, 32, fld w 12 0)]) else none))

/-- A spare-row entry in place of the remap entries of one array row, where two or more lie in it and a spare row of the
bank is free (R620). -/
def rowMerge (s : State) (es : List Word) : List Word :=
  let key := fun (e : Word) => (fld e 59 48, fld e 44 32 / 64)
  let remaps := es.filter (fun e => entType e == 2)
  remaps.foldl (fun (l : List Word) e =>
    let same := l.filter (fun x => entType x == 2 && key x == key e)
    let used := l.filter (fun x => entType x == 1 && fld x 59 48 == fld e 59 48)
    match (List.range 2).find? (fun sp => !used.any (fun x => fld x 47 47 == sp) &&
        !bitOf (bank s (fld e 59 48)).repair (49 + 8 * sp)) with
    | none => l
    | some sp =>
      if same.length < 2 then l
      else l.filter (fun x => !(entType x == 2 && key x == key e)) ++
        [mkWord [(63, 60, 1), (59, 48, fld e 59 48), (47, 47, sp), (46, 40, fld e 44 32 / 64)]]) es

/-- The new record's entries and whether some were dropped (R620). -/
def recNew (s : State) : List Word × Bool :=
  let add := fun (l : List Word) (e : Word) => if l.contains e then l else l ++ [e]
  let all := rowMerge s ((s.st.swaps ++ s.st.hardCols ++ bankEntries s).foldl add (recEntries s.st.record))
  if all.length ≤ 237 then (all, false)
  else
    let of := fun (k : Nat) => all.filter (fun e => entType e == k)
    ((of 4 ++ of 3 ++ of 1 ++ of 2).take 237, true)

/-- The new record goes into the inactive copy, which becomes active; SDPEND clears (R616, R618). -/
def recWrite (s : State) : State :=
  let es := recNew s
  let ms := (s.now - s.st.testAt) / 1000
  let res := s.st.results.take 7 ++ [setFld (s.st.results.getD 7 0) 63 52 (min 4095 ms)]
  let head := mkWord [(63, 48, 0x5250), (47, 32, fld (s.st.record.headD 0) 47 32 + 1), (31, 31, 1),
    (30, 30, es.2.toNat), (15, 8, es.1.length)]
  let body := head :: res ++ es.1 ++ List.replicate (237 - es.1.length) 0
  let ws := body ++ [BitVec.ofNat 64 (recCrc body)]
  let c := 1 - recAct s
  let s1 := ws.zipIdx.foldl (fun t (p : Word × Nat) => bbrPut t (17 + 247 * c + p.2) p.1) s
  let s2 := bbrPut s1 16 (mkWord [(62, 62, c)])
  let s3 := { s2 with st := { s2.st with
    record := ws, results := res
    stat := mkWord [(63, 60, 1), (59, 48, fld head 43 32), (47, 40, es.1.length), (39, 32, fld s.st.stat 39 32),
      (31, 31, es.2.toNat)] } }
  if es.2 then faultLog s3 0x14 0 0 else s3

/-! ### Die-to-die crossings (R229, R251, R610) -/

/-- The link ends of a crossing: router and link (0 north, 1 east, 2 south, 3 west). -/
def crossingLinks (c : Nat) : List (Nat × Nat) :=
  let row := fun (x y0 : Nat) => (List.range 8).flatMap (fun i => [(routerAt x (y0 + i), 1), (routerAt (x + 1) (y0 + i), 3)])
  let col := fun (x0 : Nat) => (List.range 12).flatMap (fun i => [(routerAt (x0 + i) 7, 0), (routerAt (x0 + i) 8, 2)])
  match c with
  | 0 => row 0 0
  | 1 => row 0 8
  | 2 => row 12 0
  | 3 => row 12 8
  | 4 => col 1
  | _ => col 13

/-- DOWN of a crossing's links; a closed link stays down. -/
def crossingDown (s : State) (c : Nat) (down : Bool) : State :=
  (crossingLinks c).foldl (fun t (p : Nat × Nat) =>
    let x := routerOf t p.1
    routerPut t p.1 { x with link := setBit x.link (4 + p.2) (down || nbit x.closed p.2) }) s
def crossingClose (s : State) (c : Nat) : State :=
  let t := (crossingLinks c).foldl (fun t (p : Nat × Nat) =>
    let x := routerOf t p.1
    routerPut t p.1 { x with closed := nset x.closed p.2 }) s
  { crossingDown t c true with st := { t.st with closed := t.st.closed ++ [c] } }

/-- A wire fault (R610): a free spare of its group takes over while the crossing retrains, or the crossing closes. -/
def wireFault (s : State) (c g w : Nat) : State :=
  if wireDone s c g w = true ∨ s.st.closed.contains c = true then s
  else match freeSpare s c g with
    | some sp =>
      let e := wireEntry c g sp w
      let t := faultLog (spareTake s c g sp w) 0x0C c (fld e 63 32)
      crossingDown { t with st := { t.st with swaps := t.st.swaps ++ [e], swapping := t.st.swapping ++ [c] } } c true
    | none => crossingClose (faultLog s 0x0D c (fld (wireEntry c g 0 w) 63 32)) c

/-- A wire that the self-test finds weak gets its spare at the next start (R615, R620). -/
def wireWeak (s : State) (c g w : Nat) : State :=
  if wireDone s c g w then s
  else match freeSpare s c g with
    | some sp => let t := spareTake s c g sp w; { t with st := { t.st with swaps := t.st.swaps ++ [wireEntry c g sp w] } }
    | none => s

/-! ### Slices (R614, R615, R619) -/

def sliceKind (k : Nat) : Nat := if k = 0 then 0 else if k < 6 then 1 else if k < 12 then 2 else if k < 44 then 3 else 4
/-- Whether a slice's kind is enabled and its unit was configured in the last load. -/
def sliceRuns (s : State) (k : Nat) : Bool :=
  bitOf s.st.ctl (sliceKind k) &&
  (if k < 12 then true
   else if k < 44 then (List.range 4).any (fun i => lnMode s (4 * (k - 12) + i) != 0)
   else bitOf (mcOf s (k - 44)).cfg 32)
/-- The units of a slice as bits of a results word: the word's index and the mask. -/
def sliceBits (k : Nat) : Nat × Word :=
  if k = 0 then (3, fldMask 12 0 ||| fldMask 35 16)
  else if k = 1 then (2, fldMask 44 44)
  else if k < 6 then let d := k - 2; (2, fldMask (10 * d + 9) (10 * d) ||| fldMask (40 + d) (40 + d))
  else if k < 12 then (5, fldMask (8 * (k - 6) + 7) (8 * (k - 6)))
  else if k < 44 then let l := 4 * (k - 12); (l / 64, fldMask (l % 64 + 3) (l % 64))
  else (4, fldMask (8 * (k - 44) + 7) (8 * (k - 44)))
def resSet (s : State) (i : Nat) (w : Word) : State := { s with st := { s.st with results := s.st.results.set i w } }
def resGet (s : State) (i : Nat) : Word := s.st.results.getD i 0

/-- A slice's results: fail bits of its word, or the worst margin of its crossing. -/
def sliceResult (s : State) (k : Nat) (fails margins : List Nat) : State :=
  let b := sliceBits k
  let old := resGet s b.1 &&& ~~~ b.2
  let s1 := if 6 ≤ k ∧ k < 12 then resSet s b.1 (old ||| BitVec.ofNat 64 ((margins.headD 0 % 256) * 2 ^ (8 * (k - 6))))
    else resSet s b.1 (old ||| (BitVec.ofNat 64 (fails.foldl nset 0) &&& b.2))
  let s2 := if fails.isEmpty then s1 else faultLog s1 0x13 k k
  resSet s2 6 (setBit (resGet s2 6) k true)

/-- The next slice that runs, from k on; those passed over count as done. -/
def sliceFrom (s : State) (k : Nat) : State :=
  let next := (List.range 52).find? (fun j => decide (k ≤ j) && sliceRuns s j)
  let last := next.getD 52
  let done := (List.range 52).foldl (fun w j => if k ≤ j ∧ j < last then setBit w j true else w) (resGet s 6)
  let t := resSet s 6 done
  { t with st := { t.st with slice := next } }

/-- Everything inside the fabric dies drops and the dies sleep (R544). -/
def offline (s : State) : State :=
  let ns := (List.range 2048).filter domValid
  let goal := fun (n : Nat) => if n < 0x480 then 3 else 4
  let s1 := ns.foldl (fun t n => domEnter t n (goal n)) s
  let ds : Tbl Dom := ns.map (fun n => (n, { domOf s1 n with cur := goal n }))
  let s2 := { s1 with pwr := { s1.pwr with doms := ds }, st := { s1.st with slice := none } }
  setStage { s2 with rst := { s2.rst with shdnAck := true } } 23

/-- Step 4 ends: the record is written, then step 5 (R542, R616). -/
def slicesEnd (s : State) : State :=
  if s.rst.urgent then offline s else offline (recWrite { s with st := { s.st with slice := none } })
/-- The next slice of a shutdown begins, or step 4 ends. -/
def sliceNext (s : State) (k : Nat) : State :=
  let t := sliceFrom s k
  if t.st.slice.isNone then slicesEnd t else t

/-! ### The orderly shutdown (R542, R543) -/

/-- Steps 2 and 3: panels isolated, every other unit disabled, devices in self-refresh, transmit lanes idle. -/
def shutUnits (s : State) : State :=
  let ps := (List.range 32).filter (fun p => panelState s p != 0)
  let s1 := ps.foldl (fun t p => panelDrained (panelIsolate t 3 2 p) p) s
  let us := (List.range 384).map (4096 + ·) ++ (List.range 8).map (5000 + ·) ++ (List.range 32).map (5100 + ·) ++
    (List.range 128).map (5200 + ·)
  let s2 := us.foldl (fun t u => wrapStop (wrapAnswer (wrapDisable t u) u 3) u) s1
  let s3 := (List.range 8).foldl (fun t m => ctrlStop t m false) s2
  (List.range 128).foldl (fun t k => if fld (laneOf t k).stat 59 58 = 2 then laneTaken (lnPutField t k 59 58 1) k else t) s3

/-- A shutdown is asked for (R542, R543): the first request starts it, a second one makes it urgent. -/
def shutGo (s : State) (urgent again : Bool) : State :=
  if stage s = 23 then s
  else if stage s = 22 then
    (if again then offline { s with rst := { s.rst with urgent := true } } else s)
  else
    let s1 := shutUnits (setStage { s with rst := { s.rst with urgent := urgent } } 22)
    if urgent = true ∨ fld s1.st.ctl 47 40 = 0 then offline s1
    else
      let s2 := bbrPut s1 16 (setBit (tget 0 s1.sec.bbram 16) 63 true)
      let s3 := resSet (resSet s2 6 0) 7 0
      sliceNext { s3 with st := { s3.st with testAt := s3.now, stat := setFld s3.st.stat 63 60 3 } } 0

/-- A slice of the quick start checks ends (R622): slice 0, or 6 to 11. -/
def quickNext (s : State) (k : Nat) : State :=
  let t := { s with st := { s.st with stat := setFld s.st.stat 63 60 2 } }
  if 6 ≤ k ∧ k < 11 then { t with st := { t.st with slice := some (k + 1) } }
  else { t with st := { t.st with slice := none, quick := decide (k = 0) } }

/-- A slice ends with its results. For a crossing `fails` names weak wires as group × 128 + wire (R614, R615, R622). -/
def sliceEnd (s : State) (fails margins : List Nat) : State :=
  match s.st.slice with
  | none => s
  | some k =>
    let s1 := sliceResult s k fails margins
    let one := fun (t : State) (f : Nat) => if s.st.quick then wireFault t (k - 6) (f / 128 % 256) (f % 128)
      else wireWeak t (k - 6) (f / 128 % 256) (f % 128)
    let s2 := if 6 ≤ k ∧ k < 12 then fails.foldl one s1 else s1
    if s.st.quick then quickNext s2 k else sliceNext s2 (k + 1)

/-- The running slice runs out of time (R614). -/
def sliceOver (s : State) : State :=
  match s.st.slice with
  | none => s
  | some k =>
    let s1 := resSet s 7 (setBit (resGet s 7) k true)
    let s2 := resSet s1 6 (setBit (resGet s1 6) k false)
    if s.st.quick then quickNext s2 k else sliceNext s2 (k + 1)

/-! ### The repair commit (R623) -/

/-- FREE of object 0x7110.00 (R628). -/
def repairFree (s : State) : Nat :=
  ((List.range 32).filter (fun k => !tget false s.sec.commit (32 + k) && tget 0 s.sec.fuses (32 + k) == 0)).length

/-- GO written (R623): false where it is refused. -/
def repairGo (s : State) : Bool × State :=
  let r := recUsed s
  if 22 ≤ stage s ∨ r.isEmpty = true ∨ s.sec.vfuse = false ∨ secLock s = true ∨ bitOf s.sec.fusstat 63 = true ∨
      bitOf s.st.commit 62 = true then
    (false, { s with st := { s.st with commit := setBit s.st.commit 60 true } })
  else
    let held := fun (e : Word) => (List.range 32).any (fun k => tget false s.sec.commit (32 + k) && tget 0 s.sec.fuses (32 + k) == e)
    (true, repairNext { s with st := { s.st with
      commit := mkWord [(62, 62, 1)], todo := (recEntries r).filter (fun e => !held e) } })

/-! ### Commands -/

/-- SELFTEST_SLICE_END (R614, R615). -/
def execSelftestSliceEnd (fails : List Nat) (margins : List Nat) (s : State) : Out := .next (sliceEnd s fails margins)
/-- SLICE_TIMEOUT (R614). -/
def execSliceTimeout (s : State) : Out := .next (sliceOver s)
/-- SELFTEST_TOTAL_TIMEOUT (R614): the slices stop. -/
def execSelftestTotalTimeout (s : State) : Out :=
  .next (if s.st.slice.isSome = true ∧ s.st.quick = false then slicesEnd s else s)
/-- SHUTDOWN_REQUEST: SHDN_REQ_N recognised low (R542, R543). -/
def execShutdownRequest (s : State) : Out := .next (shutGo s false true)
/-- D2D_WIRE_FAULT (R610). -/
def execD2dWireFault (crossing : Fin 6) (group : Fin 256) (wire : Fin 128) (s : State) : Out :=
  .next (wireFault s crossing group wire)
/-- D2D_SWAP_DONE (R610): the crossing has retrained. -/
def execD2dSwapDone (crossing : Fin 6) (s : State) : Out :=
  .next (if s.st.swapping.contains crossing.val then
    crossingDown { s with st := { s.st with swapping := s.st.swapping.filter (· != crossing.val) } } crossing false else s)
/-- REPAIR_COMMIT: GO written to object 0x7110.00 (R623). -/
def execRepairCommit (s : State) : Out := .next (repairGo s).2

end Sys2Proof.Machine
end

