-- ==== Sys2Proof/Machine/Reset.lean ====
section
/-! DEFINITION. The commands of reset and bring-up: sources, release, RST_N, RST_CMD and the start-up timeline
(R518 to R549). -/

namespace Sys2Proof.Machine
open Sys2Proof

/-! ### Release (R525, R528 to R531) -/

/-- The reach of a source (R520); a command's is as written. -/
def srcReach (s : State) (code reach : Nat) : Nat :=
  match code with
  | 1 => 6
  | 2 => 6
  | 3 => 5
  | 4 => 5
  | 5 => 5
  | 6 => if bitOf (fuseWord s 0) 13 then 4 else 5
  | 7 => 3
  | 8 => 3
  | _ => reach

/-- The sources that hold the episode: RST_N counts as released once the VX9 drives the pin (R522). -/
def srcHolding (s : State) : List (Nat × Nat) := s.rst.asserted.filter (fun a => a.1 != 6)

/-- The VX9 stops driving RST_N once every other source has released and the stretch has elapsed (R523). -/
def driveStop (s : State) : State :=
  if s.rst.driving = true ∧ s.rst.stretched = true ∧ (srcHolding s).isEmpty = true then
    { s with rst := { s.rst with driving := false } }
  else s

def srcRelease (s : State) (code : Nat) : State :=
  driveStop { s with rst := { s.rst with asserted := s.rst.asserted.filter (fun a => a.1 != code) } }

/-- The release of one narrow reset (R38, R142, R285, R518). -/
def narrowRelease (s : State) (n : Nat × Nat × Nat) : State :=
  match n with
  | (2, _, p) => (List.range 120).foldl (fun t i => engTryLeave t (120 * p + i)) s
  | (_, 0, e) => engTryLeave s e
  | (_, 1, g) => wrapPut s (4096 + g) { wrapOf s (4096 + g) with st := .waking }
  | (_, 2, m) => ctrlVote (ctrlStart (wrapPut s (5000 + m) { wrapOf s (5000 + m) with st := .waking }) m) m
  | (_, _, q) =>
    (List.range 4).foldl (fun t i => wrapPut t (5200 + 4 * q + i) { wrapOf t (5200 + 4 * q + i) with st := .waking })
      (wrapPut s (5100 + q) { wrapOf s (5100 + q) with st := .waking })

/-- The narrow resets that p picks release. -/
def narrowsRelease (s : State) (p : Nat × Nat × Nat → Bool) : State :=
  (s.rst.narrow.filter p).foldl narrowRelease { s with rst := { s.rst with narrow := s.rst.narrow.filter (fun n => !p n) } }

/-- RST_CAUSE receives the episode (R531, R547). -/
def causeWrite (s : State) : State :=
  let top := s.rst.covered.foldl (fun m (a : Nat × Nat) => max m a.2) 0
  let src := (s.rst.covered.filter (fun a => a.2 == top)).foldl (fun m (a : Nat × Nat) => min m a.1) 255
  { s with rst := { s.rst with cause := mkWord [(63, 63, 1), (62, 60, top), (55, 48, src), (47, 32, s.rst.seen),
    (31, 0, fld s.rst.cause 31 0 + 1)] } }

/-- On release of WARM each panel in RUN runs its start-up steps, with no waits (R529). -/
def warmRelease (s : State) : State :=
  ((List.range 32).filter (fun p => panelState s p == 1)).foldl (fun t p =>
    panelRun (panelOut (panelSr (panelWe t p) p) p) p) s

/-- Whether the episode may release (R523, R525, R565). -/
def episodeFree (s : State) : Bool :=
  s.rst.active && (srcHolding s).isEmpty && s.rst.stretched && s.sec.zscope == 0 &&
  (decide (s.rst.eff < 4) || (!s.rst.driving && s.rst.pinHigh))

/-- An episode releases (R525, R528 to R531). -/
def episodeEnd (s : State) : State :=
  let eff := s.rst.eff
  let s1 := causeWrite s
  let s2 := { s1 with rst := { s1.rst with
    asserted := [], active := false, covered := [], seen := 0, eff := 0, stretched := false } }
  if eff = 4 then warmRelease { s2 with rst := { s2.rst with narrow := s2.rst.narrow.filter narrowOwn } } else s2

/-- The resets that can release do so: those that no wider one covers (R519). -/
def resetRelease (s : State) : State :=
  if episodeFree s then narrowsRelease (episodeEnd s) (fun _ => true)
  else if s.rst.active = true ∧ 4 ≤ s.rst.eff then if s.rst.eff = 4 then narrowsRelease s narrowOwn else s
  else narrowsRelease s (fun _ => true)

/-! ### RST_CMD (R546) -/

/-- The source code a writer of the register stands for (R520): JTAG for the debug access master, else the service port;
through an object the carrier's code is used. -/
def rstSrc (init : Nat) : Nat := if init = 0x10 then 0x0B else 0x09

/-- Whether a command's KIND and INDEX are in range. -/
def rstInRange (act kind idx : Nat) : Bool :=
  match act with
  | 1 => match kind with
    | 0 => decide (idx < 3840)
    | 1 => decide (idx < 384)
    | 2 => decide (idx < 8)
    | 3 => decide (idx < 32)
    | _ => false
  | 2 => decide (idx < 32)
  | _ => true

/-- RST_CMD written: false where the write is refused, nothing changing. -/
def rstCmd (s : State) (src : Nat) (v : Word) : Bool × State :=
  let act := fld v 62 60
  let kind := fld v 18 16
  let idx := fld v 11 0
  if bitOf v 63 = false ∨ act = 0 then (true, s)
  else if rstInRange act kind idx = false ∨ (stage s = 23 ∧ (act < 5 ∨ act = 7)) then (false, s)
  else match act with
    | 1 => (true, narrowReset s 1 kind idx)
    | 2 => (true, narrowReset s 2 0 idx)
    | 7 => (true, shutGo s (bitOf v 59) (bitOf v 59))
    | _ => (true, assertSource s src act)

/-- A command of RST_CMD from an initiator, with its ACTION (R30, R546). -/
def rstCmdBy (s : State) (init act : Nat) (v : Word) : State :=
  if hubGrant s init then (rstCmd s (rstSrc init) (setFld (setBit v 63 true) 62 60 act)).2 else s

/-! ### The start-up timeline (R532 to R540) -/

/-- The MODESEL resistors of R533 in ohms. -/
def modeselOhms : List Nat := [1000, 1270, 1620, 2050, 2610, 3320, 4220, 5360, 6810, 8660, 11000, 14000, 17800, 22600, 28700, 36500]

/-- The code whose value lies within 10 % of a measurement. -/
def modeselCode (x : Nat) : Option Nat :=
  (List.range 16).find? (fun i =>
    let v := modeselOhms.getD i 0
    decide (9 * v ≤ 10 * x) && decide (10 * x ≤ 11 * v))

/-- Straps are held (R532 to R534). -/
def strapWord (x : Nat) (pud : Bool) : Word :=
  match modeselCode x with
  | none => mkWord [(51, 51, 1), (50, 50, pud.toNat)]
  | some c => mkWord [(57, 56, if c < 5 then 0 else if c < 9 then 2 else 1), (55, 52, c), (50, 50, pud.toNat)]

/-- The port of R533: 1 for 10BASE-T1S. -/
def strapPort (x : Nat) : Nat := match modeselCode x with
  | some 1 => 1
  | some 3 => 1
  | some 6 => 1
  | _ => 0

/-- Start-up stops at a stage (R540). -/
def stageStop (s : State) (n : Nat) : State :=
  let t := setStage s n
  { t with rst := { t.rst with state := setBit t.rst.state 58 true } }

/-- Start-up may go on: no reset of reach COLD or wider, not stopped. -/
def stageOpen (s : State) : Bool :=
  !(s.rst.active && decide (5 ≤ s.rst.eff)) && !bitOf s.rst.state 58

/-- Power good (R532, R535, R559), the first moment of it after a POWER-ON reset asserts: straps are measured, node and port
fixed, lost BBRAM is zeroed with an alarm. -/
def powerUp (s : State) (ohms : Nat) (pud : Bool) (sp : Nat) (hv7 lost : Bool) : State :=
  if s.rst.active = false ∨ s.rst.eff ≠ 6 ∨ s.pins.measured = true then s
  else
    let w := (s.rst.state &&& ~~~ (fldMask 57 50)) ||| strapWord ohms pud
    let s1 := { s with
      rst := { s.rst with state := w }, svc := { s.svc with node := sp, phys := strapPort ohms }
      pins := { s.pins with modesel := ohms, pudsel := pud, hv7is33 := hv7, measured := true } }
    let s2 := if lost then
        alarms { s1 with sec := { s1.sec with bbram := [], bbr := setBit (setBit s1.sec.bbr 57 true) 56 false } } [13]
      else s1
    setStage (srcRelease s2 1) 2

/-- Fuse words that hold data without their commit bit (R538). -/
def fuseInc (s : State) : Nat :=
  min 1023 (s.sec.fuses.filter (fun (p : Nat × Word) => !tget false s.sec.commit p.1)).length

/-- Hub trims are in force (R505, R536 to R538, R550, R561, R566, R568): an interrupted zeroisation erases its slots first. -/
def hubTrimsLoad (s : State) : State :=
  let s1 := if (bitOf (tget 0 s.sec.bbram 5) 1 = true ∨ bitOf s.sec.bbr 56 = true) ∧ s.sec.zscope = 0 then
      let t := slotErase (slotErase s 0 5 5) 6 3 9
      let u := bbrPut t 5 (setBit (tget 0 t.sec.bbram 5) 1 false)
      { u with sec := { u.sec with bbr := setBit u.sec.bbr 56 false } }
    else s
  let st := if bitOf (fuseWord s1 2) 0 then 2 else if bitOf (fuseWord s1 1) 0 then 1 else 0
  let w := setBit (setBit (setBit (setBit (setFld s1.sec.state 63 62 st) 58 (bitOf (fuseWord s1 0) 14)) 51 true) 53 (slotKey s1 0 5).isSome) 52 (slotKey s1 6 3).isSome
  let s2 := secRefresh { s1 with
    sec := { s1.sec with state := w }, clk := { s1.clk with ref := setFld s1.clk.ref 59 56 (fld (fuseWord s1 0) 3 0) } }
  drawKey { s2 with rst := { s2.rst with state := setFld s2.rst.state 41 32 (fuseInc s2) } }

/-- The BBRAM slots that hold a key which does not unwrap: each raises BBRUNW (R554). -/
def slotsBad (s : State) : List Nat :=
  (if bitOf (tget 0 s.sec.bbram 5) 0 && (slotKey s 0 5).isNone then [7] else []) ++
  (if bitOf (tget 0 s.sec.bbram 9) 0 && (slotKey s 6 3).isNone then [7] else [])

/-- Hub trims (R537): the primary, its copy, or a stop. -/
def hubTrims (s : State) (ok copy : Bool) : State :=
  if 3 ≤ stage s ∨ stageOpen s = false then s
  else if ok = false ∧ copy = false then
    let t := stageStop s 3
    { t with rst := { t.rst with state := setBit t.rst.state 42 true } }
  else
    let t := setStage (hubTrimsLoad s) 3
    let u := if ok then t else { t with rst := { t.rst with state := setBit t.rst.state 43 true } }
    alarms u (slotsBad u)

/-- Dies that fail discovery or their trims stop start-up (R537, R540). -/
def dieStep (s : State) (good n : Nat) : State :=
  let bad := (List.range 4).foldl (fun m d => if nbit good d then m else nset m d) 0
  let t := { s with rst := { s.rst with state := setFld s.rst.state 47 44 (fld s.rst.state 47 44 ||| bad) } }
  if bad = 0 then setStage t n else stageStop t n

/-- Die trims, then fuse and soft repair (R536, R537, R621, R622). -/
def dieTrimsLoad (s : State) (good : Nat) : State :=
  if stage s ≠ 5 ∨ stageOpen s = false then s
  else
    let t := dieStep s good 6
    if bitOf t.rst.state 58 then t
    else
      let u := repairApply t
      if quickDue u then { u with st := { u.st with quick := true, slice := some 0 } } else u

/-- The network trains once REFCLK0 is valid at a supported frequency (R474, R539, R540). -/
def nocTrain (s : State) (ok : Bool) : State :=
  if stage s ≠ 6 ∨ stageOpen s = false ∨ s.st.slice.isSome = true then s
  else if bitOf s.clk.ref 60 = false ∨ fld s.clk.ref 50 48 = 7 then stageStop s 7
  else if ok = false then stageStop (setStage s 7) 8
  else
    let t := setStage (setStage s 7) 8
    if t.st.quick then { t with st := { t.st with slice := some 6 } } else t

/-- Bank valid bits are clear, receivers are detected, and loading begins (R376, R463, R539). -/
def laneDetect (s : State) : State :=
  if stage s ≠ 8 ∨ stageOpen s = false ∨ s.st.slice.isSome = true then s
  else
    let t := setStage (setStage s 9) 10
    if modeCode t = 0 then ldCold t else lgReady (ldCold t)

/-- The management controller runs (R530, R539): with a shutdown made urgent by a HUB reset, the device goes OFFLINE. -/
def hubUp (s : State) : State :=
  if s.rst.hubLoading = false ∨ (stage s < 3 ∧ s.rst.active = false) ∨
      s.rst.asserted.any (fun a => a.2 == 3 || decide (5 ≤ a.2)) = true ∨ (s.rst.active = true ∧ 5 ≤ s.rst.eff) then s
  else
    let t := { s with rst := { s.rst with hubLoading := false } }
    if stage t = 22 ∧ t.rst.urgent = true then offline t
    else if stage t = 3 ∧ bitOf t.rst.state 58 = false then setStage t 4 else t

/-! ### Commands -/

/-- RESET_SOURCE_ASSERT (R520, R524, R525). -/
def execResetSourceAssert (code : Fin 16) (reach : Fin 8) (s : State) : Out :=
  let r := srcReach s code reach
  .next (if 1 ≤ code.val ∧ code.val ≤ 12 ∧ 3 ≤ r ∧ r ≤ 6 then assertSource s code r else s)
/-- RESET_SOURCE_RELEASE (R520): source 0x01 releases at power good. -/
def execResetSourceRelease (code : Fin 16) (s : State) : Out :=
  .next (if code.val = 1 then s else srcRelease s code)
/-- RESET_STRETCH_EXPIRE (R526). -/
def execResetStretchExpire (s : State) : Out :=
  .next (if s.rst.active then driveStop { s with rst := { s.rst with stretched := true } } else s)
/-- RESET_RELEASE (R525, R528 to R531). -/
def execResetRelease (s : State) : Out := .next (resetRelease s)
/-- RST_N_LOW (R522): recognised low after being read high; the VX9's own drive is not. -/
def execRstNLow (s : State) : Out :=
  if s.rst.driving = true ∨ s.rst.pinHigh = false then .next s
  else
    let t := assertSource s 6 (srcReach s 6 0)
    .next { t with rst := { t.rst with pinHigh := false } }
/-- RST_N_HIGH (R523): read high on two consecutive edges. -/
def execRstNHigh (s : State) : Out :=
  .next (if s.rst.driving then s else { s with rst := { s.rst with pinHigh := true } })
/-- POWER_ON_DETECT (R520). -/
def execPowerOnDetect (s : State) : Out := .next (assertSource s 1 6)
/-- VAON_BROWNOUT (R520). -/
def execVaonBrownout (s : State) : Out := .next (assertSource s 2 6)
/-- CORE_BROWNOUT (R520). -/
def execCoreBrownout (rail : Fin 6) (s : State) : Out := .next (assertSource s 5 (srcReach s 5 rail))
/-- RAIL_BROWNOUT (R520, R612): rails 6 to 10 reset nothing and are reported. -/
def execRailBrownout (rail : Fin 13) (s : State) : Out :=
  .next (if 6 ≤ rail.val ∧ rail.val ≤ 10 then faultLog s 0x12 rail rail else s)
/-- THERMAL_TRIP (R521). -/
def execThermalTrip (s : State) : Out := .next (assertSource s 3 5)
/-- THERMAL_CLEAR (R521). -/
def execThermalClear (s : State) : Out := .next (srcRelease s 3)
/-- LOCKSTEP_MISMATCH (R520, R607). -/
def execLockstepMismatch (s : State) : Out := .next (assertSource (faultLog s 0x0E 0 0) 7 3)
/-- HUB_WATCHDOG_EXPIRE (R520). -/
def execHubWatchdogExpire (s : State) : Out := .next (assertSource s 8 3)
/-- RST_CMD_UNIT (R546). -/
def execRstCmdUnit (init : BitVec 16) (v : Word) (s : State) : Out := .next (rstCmdBy s init.toNat 1 v)
/-- RST_CMD_PANEL (R546). -/
def execRstCmdPanel (init : BitVec 16) (v : Word) (s : State) : Out := .next (rstCmdBy s init.toNat 2 v)
/-- RST_CMD_HUB (R546). -/
def execRstCmdHub (init : BitVec 16) (v : Word) (s : State) : Out := .next (rstCmdBy s init.toNat 3 v)
/-- RST_CMD_WARM (R546). -/
def execRstCmdWarm (init : BitVec 16) (v : Word) (s : State) : Out := .next (rstCmdBy s init.toNat 4 v)
/-- RST_CMD_COLD (R546). -/
def execRstCmdCold (init : BitVec 16) (v : Word) (s : State) : Out := .next (rstCmdBy s init.toNat 5 v)
/-- RST_CMD_POWER_ON (R546). -/
def execRstCmdPowerOn (init : BitVec 16) (v : Word) (s : State) : Out := .next (rstCmdBy s init.toNat 6 v)
/-- RST_CMD_SHUTDOWN (R542, R543, R546). -/
def execRstCmdShutdown (init : BitVec 16) (v : Word) (s : State) : Out := .next (rstCmdBy s init.toNat 7 v)
/-- RSTCMD of the native TAP (R575, R578): COLD and POWER-ON at every level, any ACTION at FULL. -/
def execTapRstcmd (v : Word) (s : State) : Out :=
  let act := fld v 62 60
  .next (if nativeTap s = true ∧ (dbgLevel s = 2 ∨ act = 5 ∨ act = 6) then (rstCmd (tapGo s 0x017 []) 0x0B v).2
    else tapGo s 0x017 [0])
/-- HUB_FIRMWARE_RELOAD (R530, R539). -/
def execHubFirmwareReload (s : State) : Out := .next (hubUp s)
/-- POWER_GOOD (R532, R535, R559). -/
def execPowerGood (ohms : Nat) (pudsel : Bool) (spId : Fin 16) (hv7is33 bbLost : Bool) (s : State) : Out :=
  .next (powerUp s ohms pudsel spId hv7is33 bbLost)
/-- HUB_TRIMS (R536 to R538, R550, R561). -/
def execHubTrims (primaryOk copyOk : Bool) (s : State) : Out :=
  .next (hubTrims s primaryOk copyOk)
/-- DIE_DISCOVERY (R539, R540). -/
def execDieDiscovery (found : BitVec 4) (s : State) : Out :=
  .next (if stage s = 4 ∧ stageOpen s = true then dieStep s found.toNat 5 else s)
/-- DIE_TRIMS (R536, R537, R621, R622). -/
def execDieTrims (recordOk : BitVec 4) (s : State) : Out := .next (dieTrimsLoad s recordOk.toNat)
/-- NOC_LINK_TRAINING (R539, R540). -/
def execNocLinkTraining (ok : Bool) (s : State) : Out := .next (nocTrain s ok)
/-- LANE_RECEIVER_DETECT (R205, R376, R539). -/
def execLaneReceiverDetect (s : State) : Out := .next (laneDetect s)

end Sys2Proof.Machine
end

