-- ==== Sys2Proof/Machine/Regs.lean ====
section
/-! DEFINITION. Reading and writing the device registers, and who may (R13 to R19, R26 to R30 and every register table of
the spec). -/

namespace Sys2Proof.Machine
open Sys2Proof

/-! ### Reads -/

/-- NOC_C0_SHAPE as it reads (R258). -/
def c0Word (r : Nat) (w : Word) : Word :=
  let a := if hubRouter r then setFld w 47 32 0 else w
  if r = 0 ∨ r = 15 then setBit a 48 true else a

/-- The slots of a router that hold packets now (R262). -/
def holdingMask (s : State) (r : Nat) : Nat :=
  (s.noc.held.filter (fun q => q.slot / 16 == r)).foldl (fun m q => nset m (q.slot % 16)) 0

/-- A mask register with its fixed bits (R277); i numbers the select bits. -/
def maskWord (s : State) (i : Nat) (v : Word) : Word :=
  let k := fld s.gcfg 33 32 + 7
  setBit (v &&& fldMask 39 (3 + k)) (3 + i) true

/-- MC_GCFG with the visible capacity of a slice (R280, R295). -/
def gcfgWord (s : State) : Word :=
  if (List.range 8).any (fun m => bitOf (mcOf s m).cfg 32) then setFld s.gcfg 23 0 ((memMap s).gb <<< fld s.gcfg 33 32)
  else setFld s.gcfg 23 0 0

/-- PWR_DOMn as it reads (R516). -/
def domWord (s : State) (n : Nat) : Word :=
  let d := domOf s n
  mkWord [(63, 48, d.votes + (hwVote s n).toNat), (47, 45, d.cur), (44, 42, d.lastsrc), (41, 40, d.depth),
          (39, 39, (domC0 s n).toNat), (31, 16, d.linger)]

/-- A register as it reads; WO and reserved fields read 0 (R13, R19). -/
def regRead (s : State) (r : Reg) : Word :=
  match r.kind with
  | .rstCmd => 0
  | .rstCause => s.rst.cause
  | .rstState => s.rst.state
  | .clkRef => s.clk.ref
  | .clkOut => clkoutGet s r.u
  | .clkForce => s.clk.force
  | .clkStall => tget 0 s.clk.stalls r.u
  | .pllCfg => (pllOf s r.u).cfg
  | .pllOdiv => (pllOf s r.u).odiv
  | .pllStat => (pllOf s r.u).stat
  | .voteSet => 0
  | .voteClr => 0
  | .pwrWake => s.pwr.wake
  | .pwrAvs => s.pwr.avs
  | .pwrOpp => (oppOf s r.u).reg
  | .pwrDom => domWord s r.u
  | .cfgCtl => s.ld.ctl
  | .cfgStat => s.ld.stat
  | .cfgProg => s.ld.prog
  | .cfgBaste => if modeCode s = 1 then setBit s.ld.baste 62 true else s.ld.baste
  | .pnlRec => s.ld.pnlRec
  | .pnlCtl => (panelOf s r.u).ctl
  | .pnlStat => (panelOf s r.u).stat
  | .secState => s.sec.state
  | .almCfg => s.sec.almcfg
  | .almStat => s.sec.almstat
  | .secBbr => s.sec.bbr
  | .secKeyin => 0
  | .fusCtl => s.sec.fusctl
  | .fusData => 0
  | .fusStat => s.sec.fusstat
  | .dbgCtl => s.dbg.ctl
  | .dbgXtch => s.dbg.xtch
  | .dbgTrc => (trcOf s r.u).reg
  | .dbgXtp => tget 0 s.dbg.xtp r.u
  | .dbgEctl => mkWord [(63, 63, (eng s r.u).txf.toNat), (62, 62, (eng s r.u).rxf.toNat)]
  | .dbgIbp => tget 0 (eng s r.u).ibp r.k
  | .dbgDbp => tget 0x000007FF00000000 (eng s r.u).dbp r.k
  | .dbgXt => (eng s r.u).xt
  | .dbgTx => (eng s r.u).tx
  | .dbgRx => (eng s r.u).rx
  | .drnCtl => (darnerOf s r.u).ctl
  | .drnStat => (darnerOf s r.u).stat
  | .drnErr => (darnerOf s r.u).err
  | .drnLog => (darnerOf s r.u).log
  | .nocC0 => c0Word r.u (routerOf s r.u).c0
  | .nocQos => (routerOf s r.u).qos &&& nocQosMask
  | .nocPorten => (routerOf s r.u).porten
  | .nocChg => (routerOf s r.u).chg
  | .nocHold => setFld (routerOf s r.u).hold 15 0 (holdingMask s r.u)
  | .nocLink => (routerOf s r.u).link
  | .stCfg => (tget {} (routerOf s r.u).stats r.k).cfg
  | .stLat => (tget {} (routerOf s r.u).stats r.k).lat
  | .stSum => (tget {} (routerOf s r.u).stats r.k).sum
  | .stBytes => (tget {} (routerOf s r.u).stats r.k).bytes
  | .stHist =>
    let b := (tget {} (routerOf s r.u).stats (r.k / 8)).bins
    mkWord [(63, 32, tget 0 b (2 * (r.k % 8) + 1)), (31, 0, tget 0 b (2 * (r.k % 8)))]
  | .mcCfg => (mcOf s r.u).cfg
  | .mcGcfg => gcfgWord s
  | .mcGsel => if r.k < fld s.gcfg 33 32 then maskWord s r.k (tget 0 s.gsel r.k) else tget 0 s.gsel r.k
  | .mcMap => maskWord s (fld s.gcfg 33 32 + r.k) (tget 0 (mcOf s r.u).maps r.k)
  | .mcCtl => (mcOf s r.u).ctl
  | .mcStat => (mcOf s r.u).stat
  | .mcErr => (mcOf s r.u).err
  | .mcErraddr => (mcOf s r.u).erraddr
  | .grdCtl => (grdOf s r.u).ctl
  | .grdStat => (guardRoll (grdOf s r.u) s.now).stat
  | .grdErr => (grdOf s r.u).err
  | .grdErraddr => (grdOf s r.u).erraddr
  | .grdRange => (winGet (grdOf s r.u) r.k).range
  | .grdRights => (winGet (grdOf s r.u) r.k).rights
  | .lnCfg => (laneOf s r.u).cfg
  | .lnCtl => (quadOf s r.u).ctl
  | .lnRclk => setBit (quadOf s r.u).rclk 30 (rclkOk s r.u)
  | .lnStat => (laneOf s r.u).stat
  | .lnErr => (laneOf s r.u).err
  | .dqTx => (laneOf s r.u).dqTx
  | .dqRx => (laneOf s r.u).dqRx
  | .dqCtl => (laneOf s r.u).dqCtl
  | .bnkCfg => (bank s r.u).cfg
  | .bnkOwn => bankOwnWord (bank s r.u)
  | .bnkPwr => bankPwrWord s r.u
  | .bnkErr => (bank s r.u).err
  | .bnkRemap => tget 0 (bank s r.u).remap r.k
  | .bnkScrub => (bank s r.u).scrub
  | .bnkBist => (bank s r.u).bist
  | .bnkRepair => (bank s r.u).repair
  | .engCtl => (eng s r.u).ctl
  | .engStat => engStatWord (eng s r.u)
  | .engWdt => (eng s r.u).wdt
  | .engInt => 0

/-! ### Grants (R30, R180, R201, R218, R257, R293, R330, R368, R407, R436, R441, R504, R557, R578, R585, R596) -/

/-- A port of the die d. -/
def portOfDie (d init : Nat) : Bool := decide (0x2000 + 512 * d ≤ init) && decide (init < 0x2200 + 512 * d)
def anyPort (init : Nat) : Bool := decide (0x2000 ≤ init) && decide (init < 0x2800)
/-- An engine of panel p. -/
def engOfPanel (p init : Nat) : Bool := decide (0x1000 + 120 * p ≤ init) && decide (init < 0x1078 + 120 * p)

/-- The registers of the SEC_ and FUS_ block. -/
def RegKind.secret (k : RegKind) : Bool :=
  match k with
  | .secState => true
  | .almCfg => true
  | .almStat => true
  | .secBbr => true
  | .secKeyin => true
  | .fusCtl => true
  | .fusData => true
  | .fusStat => true
  | _ => false

/-- What a register's own chapter grants beside R30. -/
def chapterGrant (r : Reg) (init : Nat) (write : Bool) : Bool :=
  match r.kind with
  | .engCtl => portOfPanel (r.u / 120) init
  | .engStat => portOfPanel (r.u / 120) init
  | .engWdt => portOfPanel (r.u / 120) init
  | .engInt => portOfPanel (r.u / 120) init || (write && engOfPanel (r.u / 120) init)
  | .bnkCfg => !write && portOfPanel (bankPanel r.u) init
  | .bnkOwn => portOfPanel (bankPanel r.u) init
  | .bnkPwr => portOfPanel (bankPanel r.u) init
  | .bnkErr => !write && portOfPanel (bankPanel r.u) init
  | .bnkRemap => !write && portOfPanel (bankPanel r.u) init
  | .bnkScrub => portOfPanel (bankPanel r.u) init
  | .bnkBist => portOfPanel (bankPanel r.u) init
  | .bnkRepair => !write && portOfPanel (bankPanel r.u) init
  | .nocLink => !write && !hubRouter r.u && portOfPanel (routerPanel r.u) init
  | .stCfg => !write && !hubRouter r.u && portOfPanel (routerPanel r.u) init
  | .stLat => !write && !hubRouter r.u && portOfPanel (routerPanel r.u) init
  | .stSum => !write && !hubRouter r.u && portOfPanel (routerPanel r.u) init
  | .stBytes => !write && !hubRouter r.u && portOfPanel (routerPanel r.u) init
  | .stHist => !write && !hubRouter r.u && portOfPanel (routerPanel r.u) init
  | .mcStat => !write && portOfDie (mcDie r.u) init
  | .mcErr => !write && portOfDie (mcDie r.u) init
  | .mcErraddr => !write && portOfDie (mcDie r.u) init
  | .grdStat => !write && portOfDie (mcDie r.u) init
  | .grdErr => !write && portOfDie (mcDie r.u) init
  | .grdErraddr => !write && portOfDie (mcDie r.u) init
  | .drnStat => !write && portOfDie r.u init
  | .drnErr => !write && portOfDie r.u init
  | .drnLog => !write && portOfDie r.u init
  | .voteSet => write && anyPort init
  | .voteClr => write && anyPort init
  | .pwrOpp => !write && portOfDie r.u init
  | .pwrDom => !write && portOfDie (domDie r.u) init
  | .lnCfg => portOfPanel (r.u / 4) init
  | .lnStat => portOfPanel (r.u / 4) init
  | .lnErr => portOfPanel (r.u / 4) init
  | .dqTx => portOfPanel (r.u / 4) init
  | .dqRx => portOfPanel (r.u / 4) init
  | .dqCtl => portOfPanel (r.u / 4) init
  | .lnCtl => portOfPanel r.u init
  | .lnRclk => portOfPanel r.u init
  | .pnlStat => !write && anyPort init
  | .dbgTx => write && init == 0x1000 + r.u
  | .dbgRx => !write && init == 0x1000 + r.u
  | _ => false

/-- What the NON-INVASIVE level grants the debug access master (R578). -/
def debugGrant (s : State) (r : Reg) (init : Nat) (write : Bool) : Bool :=
  init == 0x10 && dbgLevel s == 1 &&
  (if write then r.kind == .dbgCtl || r.kind == .dbgTrc else !r.kind.secret)

/-- Whether an initiator may read or write a register. -/
def regGrant (s : State) (r : Reg) (init : Nat) (write : Bool) : Bool :=
  if write = true ∧ (r.kind = .fusCtl ∨ r.kind = .secBbr) then secWriter s init
  else if write = true ∧ r.kind = .bnkOwn ∧ bankLoading s r.u = true ∧ ¬ init < 16 then false
  else hubGrant s init || chapterGrant r init write || debugGrant s r init write

/-! ### Writes -/

/-- What a write of a register comes to: the ERR code it draws (0 none), whether the register's own rule refused it
(R642), and the state. -/
structure RegOut where
  code : Nat := 0
  refused : Bool := false
  s : State
  deriving DecidableEq, Repr

/-- The error response the spec names no code for: a free code (log entry 9). -/
def otherCode (s : State) : Nat := 1 + (Config.freeWord s.fresh).toNat % 255

/-- NOC_CHG written (R253, R261). -/
def chgWrite (s : State) (r : Nat) (v : Word) : State :=
  let x := routerOf s r
  let w := x.chg &&& ~~~ (v &&& fldMask 62 61)
  if bitOf v 0 = false then routerPut s r { x with chg := w }
  else if bitOf x.chg 63 then routerPut s r { x with chg := setBit w 61 true }
  else routerGo (routerPut s r { x with chg := w }) r

def holdTable : List Field := [⟨63, 48, .w1c⟩, ⟨47, 32, .rw⟩, ⟨31, 16, .rw⟩]
def portenTable : List Field := [⟨19, 16, .rw⟩, ⟨15, 0, .rw⟩]
def stCfgTable : List Field := [⟨63, 48, .rw⟩, ⟨47, 32, .rw⟩, ⟨31, 16, .rw⟩, ⟨7, 4, .rw⟩]
def scrubTable : List Field := [⟨63, 63, .rw⟩, ⟨62, 62, .w1c⟩, ⟨55, 48, .rw⟩, ⟨47, 40, .rw⟩]

/-- Statistics of initiator k return to their reset values (R264). -/
def statClear (x : Stats) : Stats := { x with lat := 0xFFFF000000000000, sum := 0, bytes := 0, bins := [], window := 0 }

/-- BNK_PWR written (R221). -/
def bnkPwrWrite (s : State) (n : Nat) (v : Word) : State :=
  let b := bank s n
  bankReqSet (bankPut s n { b with pwr := setBit b.pwr 2 (bitOf v 2) }) n (fld v 1 0)

/-- BNK_ERR written (R222). -/
def bnkErrWrite (b : Bank) (v : Word) : Bank :=
  let e := b.err &&& ~~~ (v &&& fldMask 36 36)
  { b with err := if bitOf v 39 then setFld (setFld e 63 48 0) 47 40 0 else e }

/-- BNK_BIST written (R225). -/
def bnkBistWrite (s : State) (n : Nat) (v : Word) : State :=
  let b := bank s n
  bistSet (bankPut s n { b with bist := b.bist &&& ~~~ (v &&& fldMask 61 60) }) n (fld v 63 62)

/-- A word reaches DBG_TXe or DBG_RXe (R596). -/
def vtWrite (s : State) (e : Nat) (tx : Bool) (v : Word) : RegOut :=
  let x := eng s e
  if (if tx then x.txf else x.rxf) then { code := 0x10, s := s }
  else { s := engPut s e (if tx then { x with txf := true, tx := v } else { x with rxf := true, rx := v }) }

/-- A register written by an initiator that may (R13 to R19): the effects are those of the register's own table. -/
def regWrite (s : State) (init : Nat) (r : Reg) (v : Word) : RegOut :=
  match r.kind with
  | .rstCmd => let p := rstCmd s (rstSrc init) v; { refused := !p.1, s := p.2 }
  | .rstCause => { s := s }
  | .rstState => { s := s }
  | .clkRef => { s := { s with clk := { s.clk with ref := s.clk.ref &&& ~~~ (v &&& fldMask 55 52) } } }
  | .clkOut => { s := clkoutWrite s r.u v }
  | .clkForce => { s := forceWrite s v }
  | .clkStall => { s := { s with clk := { s.clk with stalls := tset 0 s.clk.stalls r.u (tget 0 s.clk.stalls r.u &&& ~~~ v) } } }
  | .pllCfg => { s := pllCfgSet s r.u v }
  | .pllOdiv => { s := pllOdivSet s r.u v }
  | .pllStat => let p := pllOf s r.u; { s := pllPut s r.u { p with stat := p.stat &&& ~~~ (v &&& fldMask 59 59) } }
  | .voteSet => { s := if voteAllowed (BitVec.ofNat 16 init) v then voteSet s v else s }
  | .voteClr => { s := if voteAllowed (BitVec.ofNat 16 init) v then voteClr s v else s }
  | .pwrWake => { s := s }
  | .pwrAvs => { s := { s with pwr := { s.pwr with avs := v &&& avsMask } } }
  | .pwrOpp => { s := oppWrite s r.u v }
  | .pwrDom => { s := domPut s r.u { domOf s r.u with depth := fld v 41 40, linger := fld v 31 16 } }
  | .cfgCtl => let p := cfgCtlWrite s v; { refused := !p.1, s := p.2 }
  | .cfgStat => { s := { s with ld := { s.ld with stat := s.ld.stat &&& ~~~ (v &&& fldMask 38 38) } } }
  | .cfgProg => { s := s }
  | .cfgBaste => { s := cfgBasteWrite s v }
  | .pnlRec => { s := pnlRecWrite s v }
  | .pnlCtl => { s := pnlCtlWrite s r.u v }
  | .pnlStat => let x := panelOf s r.u; { s := panelPut s r.u { x with stat := x.stat &&& ~~~ (v &&& fldMask 58 57) } }
  | .secState => { s := s }
  | .almCfg => { s := almSet s v }
  | .almStat => { s := { s with sec := { s.sec with almstat := s.sec.almstat &&& ~~~ (v &&& fldMask 12 0) } } }
  | .secBbr => { s := bbrWrite s init v }
  | .secKeyin => { s := { s with sec := { s.sec with keyin := s.sec.keyin.set r.k v } } }
  | .fusCtl => { s := fusCtlWrite s v }
  | .fusData => { s := { s with sec := { s.sec with fusdata := v } } }
  | .fusStat => { s := { s with sec := { s.sec with fusstat := s.sec.fusstat &&& ~~~ (v &&& fldMask 62 62) } } }
  | .dbgCtl => { s := dbgCtlWrite s v }
  | .dbgXtch => { s := xtchWrite s v }
  | .dbgTrc => { s := trcWrite s r.u v }
  | .dbgXtp => { s := xtpWrite s r.u v }
  | .dbgEctl => { s := ectlWrite s r.u v }
  | .dbgIbp =>
    let x := eng s r.u
    { s := engPut s r.u { x with ibp := tset 0 x.ibp r.k (v &&& (fldMask 63 63 ||| fldMask 9 0)) } }
  | .dbgDbp =>
    let x := eng s r.u
    let m := fldMask 63 61 ||| fldMask 42 32 ||| fldMask 10 0
    { s := engPut s r.u { x with dbp := tset 0x000007FF00000000 x.dbp r.k (v &&& m) } }
  | .dbgXt => { s := engPut s r.u { eng s r.u with xt := v &&& (fldMask 47 32 ||| fldMask 15 0) } }
  | .dbgTx => vtWrite s r.u true v
  | .dbgRx => vtWrite s r.u false v
  | .drnCtl => { s := drnCtlWrite s r.u v }
  | .drnStat => let x := darnerOf s r.u; { s := darnerPut s r.u { x with stat := x.stat &&& ~~~ (v &&& fldMask 59 57) } }
  | .drnErr => { s := drnErrWrite s r.u v }
  | .drnLog => { s := s }
  | .nocC0 =>
    let x := routerOf s r.u
    { s := routerPut s r.u { x with c0 := (x.c0 &&& ~~~ nocC0Mask) ||| (v &&& nocC0Mask) } }
  | .nocQos => let x := routerOf s r.u; { s := routerPut s r.u { x with qos := v &&& nocQosMask } }
  | .nocPorten => let x := routerOf s r.u; { s := routerPut s r.u { x with porten := writeTab portenTable x.porten v } }
  | .nocChg => { s := chgWrite s r.u v }
  | .nocHold => let x := routerOf s r.u; { s := routerPut s r.u { x with hold := writeTab holdTable x.hold v } }
  | .nocLink =>
    let x := routerOf s r.u
    { s := if bitOf v 0 then routerPut s r.u { x with link := setFld x.link 63 16 0 } else s }
  | .stCfg =>
    let x := routerOf s r.u
    let t := tget {} x.stats r.k
    let t1 := { t with cfg := writeTab stCfgTable t.cfg v }
    { s := routerPut s r.u { x with stats := tset {} x.stats r.k (if bitOf v 0 then statClear t1 else t1) } }
  | .stLat => { s := s }
  | .stSum => { s := s }
  | .stBytes => { s := s }
  | .stHist => { s := s }
  | .mcCfg => { s := s }
  | .mcGcfg => { s := s }
  | .mcGsel => { s := s }
  | .mcMap => { s := s }
  | .mcCtl => { s := mcCtlWrite s r.u v }
  | .mcStat => { s := s }
  | .mcErr => { s := mcPut s r.u (mcErrWrite (mcOf s r.u) v) }
  | .mcErraddr => { s := s }
  | .grdCtl =>
    let g := grdOf s r.u
    { s := grdPut s r.u { g with ctl := v &&& (fldMask 47 32 ||| fldMask 0 0) } }
  | .grdStat => { s := s }
  | .grdErr => { s := grdPut s r.u (grdErrWrite (grdOf s r.u) v) }
  | .grdErraddr => { s := s }
  | .grdRange => { s := grdPut s r.u (winWrite (grdOf s r.u) r.k false v) }
  | .grdRights => { s := grdPut s r.u (winWrite (grdOf s r.u) r.k true v) }
  | .lnCfg => { s := s }
  | .lnCtl => { s := lnCtlWrite s r.u v }
  | .lnRclk =>
    { s := quadPut s r.u { quadOf s r.u with rclk := v &&& (fldMask 31 31 ||| fldMask 25 24 ||| fldMask 15 8) } }
  | .lnStat => { s := s }
  | .lnErr => { s := lnErrWrite s r.u v }
  | .dqTx =>
    let x := laneOf s r.u
    { s := if bitOf x.dqCtl 63 then s else lanePut s r.u { x with dqTx := v &&& (fldMask 63 60 ||| fldMask 47 4) } }
  | .dqRx =>
    let x := laneOf s r.u
    { s := if bitOf x.dqCtl 63 then s else lanePut s r.u { x with dqRx := v &&& (fldMask 63 60 ||| fldMask 47 4) } }
  | .dqCtl => { s := dqCtlWrite s r.u v }
  | .bnkCfg => { s := bankSet s r.u (bankWriteCfg (bank s r.u) v) }
  | .bnkOwn =>
    let p := bankOwnSet s r.u v
    if p.1 then { s := p.2 } else { code := otherCode s, s := bump s 1 }
  | .bnkPwr => { s := bnkPwrWrite s r.u v }
  | .bnkErr => { s := bankPut s r.u (bnkErrWrite (bank s r.u) v) }
  | .bnkRemap => { s := remapWrite s r.u r.k v 0 }
  | .bnkScrub => let b := bank s r.u; { s := bankPut s r.u (scrubSet b (writeTab scrubTable b.scrub v)) }
  | .bnkBist => { s := bnkBistWrite s r.u v }
  | .bnkRepair => { s := s }
  | .engCtl => { s := engCtlWrite s r.u v }
  | .engStat => { s := s }
  | .engWdt => { s := engWdtSet s r.u v }
  | .engInt => { s := engIntWrite s r.u v }

/-! ### Part of a register (R13, R236) -/

/-- The W1C bits of a register. -/
def RegKind.w1c (k : RegKind) : Word :=
  match k with
  | .clkRef => fldMask 55 52
  | .clkOut => fldMask 62 62
  | .clkForce => fldMask 62 62
  | .clkStall => fldMask 63 0
  | .pllStat => fldMask 59 59
  | .pwrOpp => fldMask 62 62
  | .cfgStat => fldMask 38 38
  | .pnlStat => fldMask 58 57
  | .almStat => fldMask 12 0
  | .secBbr => fldMask 59 57
  | .fusStat => fldMask 62 62
  | .dbgCtl => fldMask 58 58
  | .dbgXtp => fldMask 61 61
  | .dbgXtch => fldMask 63 48
  | .dbgTrc => fldMask 62 62
  | .drnStat => fldMask 59 57
  | .nocChg => fldMask 62 61
  | .nocHold => fldMask 63 48
  | .mcErr => fldMask 16 15
  | .grdErr => fldMask 4 0
  | .bnkErr => fldMask 36 36
  | .bnkScrub => fldMask 62 62
  | .bnkBist => fldMask 61 60
  | _ => 0

/-- What a register holds under its fields that read zero. -/
def regHeld (s : State) (r : Reg) : Word :=
  match r.kind with
  | .secKeyin => s.sec.keyin.getD r.k 0
  | .fusData => s.sec.fusdata
  | _ => regRead s r

/-- A write of part of a register is a write of the whole in which the other bytes are as they were: their W1C bits are
written 0 (R13, R236). -/
def regMerge (s : State) (r : Reg) (v : Word) (be : BitVec 8) : Word :=
  if be = 0xFF then v else (v &&& beMask be) ||| (regHeld s r &&& ~~~ beMask be &&& ~~~ r.kind.w1c)

/-! ### Addresses -/

/-- A device register address split (R26, R27): whether it is in the consuming alias, and the offset mirrored. -/
def regSplit (a : Nat) : Bool × Nat :=
  let o := a - 0x1F000000000
  if o < 0x800000000 then (false, o) else (true, o - 0x800000000)

/-- The register an address of the register range names; statistics exist for a router's initiators alone (R257). -/
def regOf (a : Nat) : Option Reg :=
  match regAt (regSplit a).2 with
  | some r =>
    match r.kind with
    | .stCfg => if r.k < (routerInits r.u).length then some r else none
    | .stLat => if r.k < (routerInits r.u).length then some r else none
    | .stSum => if r.k < (routerInits r.u).length then some r else none
    | .stBytes => if r.k < (routerInits r.u).length then some r else none
    | .stHist => if r.k / 8 < (routerInits r.u).length then some r else none
    | _ => some r
  | none => none

/-- A write of a register at an address by an initiator (R30, R585): the ERR code it draws, or its effect. A write to the
alias acts as a write to the register. -/
def addrWrite (s : State) (init a : Nat) (v : Word) : RegOut :=
  if (regSplit a).1 = true ∧ ¬ (init = 0x10 ∧ dbgLevel s = 2) then { code := 1, s := s }
  else match regOf a with
    | none => { code := otherCode s, s := bump s 1 }
    | some r => if regGrant s r init true then regWrite s init r v else { code := 1, s := s }

/-- A write of the bytes be of a register at an address. -/
def addrWriteBe (s : State) (init a : Nat) (v : Word) (be : BitVec 8) : RegOut :=
  addrWrite s init a (match regOf a with
    | some r => regMerge s r v be
    | none => v)

/-- A read (R30, R585, R596): the ERR code or the word, with its side effect. Through the alias a read clears the flag of
DBG_TXe or DBG_RXe; elsewhere DBG_RXe alone is consumed, and never by the debug access master. -/
def addrRead (s : State) (init a : Nat) : Nat × Word × State :=
  if (regSplit a).1 = true ∧ ¬ (init = 0x10 ∧ dbgLevel s = 2) then (1, 0, s)
  else match regOf a with
    | none => (otherCode s, 0, bump s 1)
    | some r =>
      if regGrant s r init false = false then (1, 0, s)
      else
        let w := regRead s r
        let x := eng s r.u
        if r.kind = .dbgTx ∧ (regSplit a).1 = true then (0, w, engPut s r.u { x with txf := false })
        else if r.kind = .dbgRx ∧ (regSplit a).1 = true then (0, w, engPut s r.u { x with rxf := false })
        else if r.kind = .dbgRx ∧ init ≠ 0x10 then
          (if x.rxf then (0, w, engPut s r.u { x with rxf := false }) else (0x11, 0, s))
        else (0, w, s)

/-- REGISTER_WRITE (R13 to R19, R30): a write of a whole register that reaches its block. -/
def execRegisterWrite (init : BitVec 16) (addr : Addr) (v : Word) (s : State) : Out :=
  if addr.toNat < 0x1F000000000 ∨ 0x1FC00000000 ≤ addr.toNat ∨ addr.toNat % 8 ≠ 0 then .next s
  else .next (addrWrite s init.toNat addr.toNat v).s

end Sys2Proof.Machine
end

