-- ==== Sys2Proof/Machine/Noc.lean ====
section
/-! DEFINITION. The packet network: decoding, routes, holds, targets, responses, router changes and statistics
(R25 to R41, R228 to R268, R633). -/

namespace Sys2Proof.Machine
open Sys2Proof

/-! ### Where an address leads (R25 to R29, R230 to R232, R279) -/

inductive NocAt where
  | mem (m : Nat)
  | bank
  | engine
  | port (k : Nat)
  | reg
  | window
  deriving DecidableEq, Repr

/-- A destination: what, router × 16 + slot, and the power domain that holds requests for it. -/
structure Dest where
  kind : NocAt
  place : Nat
  dom : Option Nat
  deriving DecidableEq, Repr

/-- External memory (R278, R279): none in a hole. -/
def memDest (s : State) (a : Nat) : Option Dest :=
  let mm := memMap s
  let slice := a / 2 ^ (34 + mm.s)
  let off := a % 2 ^ (34 + mm.s)
  let m := slice * 2 ^ mm.s + (mm.locate slice off).sel
  if mm.gb * 2 ^ (9 + mm.k) ≤ off ∨ bitOf (mcOf s (slice * 2 ^ mm.s)).cfg 32 = false then none
  else some { kind := .mem m, dom := some (0x440 + m)
              place := 16 * routerAt (1 + 6 * (m % 4) + a / 512 % 2 ^ 28 % 6) (if m < 4 then 0 else 15) + 10 }

/-- The register blocks (R26, R27, R230, R231): place and domain; a quad's slot sleeps while either of its halves does (R246,
R247). -/
def regDest (s : State) (o : Nat) : Option Dest :=
  let at_ := fun (p : Nat) (d : Option Nat) => some ({ kind := .reg, place := p, dom := d } : Dest)
  if o < 0x4000000 then at_ (16 * 5 + 6) none
  else if o < 0x10000000 then
    let d := min 3 ((o - 0x4000000) / 0x100000)
    at_ (initPlace (0x12 + d)) none
  else if o < 0x20000000 then at_ (16 * min 399 ((o - 0x10000000) / 0x10000) + 12) none
  else if o < 0x30000000 then
    let m := min 7 ((o - 0x20000000) / 0x1000000)
    at_ (unitPlace (5000 + m)) (some (0x440 + m))
  else if o < 0x40000000 then
    let q := min 31 ((o - 0x30000000) / 0x100000)
    at_ (unitPlace (5100 + q)) (some (if 2 ≤ (domOf s (0x400 + q)).cur then 0x400 + q else 0x420 + q))
  else if o < 0x50000000 then
    let g := min 3071 ((o - 0x40000000) / 0x1000) / 8
    at_ (unitPlace (4096 + g)) (some (0x200 + g))
  else if o < 0x50F00000 then
    let e := (o - 0x50000000) / 0x1000
    at_ (unitPlace e) (some (engGroup e))
  else none

/-- The destination of an address; none where no range holds it or the part is reserved (R29). -/
def addrDest (s : State) (a : Nat) : Option Dest :=
  if a < 0x2000000000 then memDest s a
  else if a < 0x10000000000 then none
  else if a < 0x1000C000000 then
    let g := (a - 0x10000000000) / 0x80000
    some { kind := .bank, place := unitPlace (4096 + g), dom := some (0x200 + g) }
  else if a < 0x11000000000 then none
  else if a < 0x11007800000 then
    let e := (a - 0x11000000000) / 0x8000
    if a % 0x8000 < 0x6000 then some { kind := .engine, place := unitPlace e, dom := some (engGroup e) } else none
  else if a < 0x12000000000 then none
  else if a < 0x13000000000 then
    let k := (a - 0x12000000000) / 0x2000000
    some { kind := .port k, place := unitPlace (6000 + k), dom := some (0x460 + k / 64) }
  else if a < 0x1F000000000 then none
  else if a < 0x1FC00000000 then regDest s (regSplit a).2
  else
    let o := a - 0x1FC00000000
    if o < 0x2000 then some { kind := .window, place := 0, dom := none }
    else if 0x10000 ≤ o ∧ o < 0x12000 then some { kind := .window, place := 16 * 15, dom := none }
    else none

/-! ### Initiators -/

def initExists (i : Nat) : Bool :=
  decide (i < 4) || decide (0x10 ≤ i ∧ i ≤ 0x15) || decide (0x1000 ≤ i ∧ i < 0x1F00) || anyPort i ||
  decide (0x3000 ≤ i ∧ i < 0x3080)

/-- A reset holds a unit (R39, R518, R519). -/
def unitHeld (s : State) (u : Nat) : Bool :=
  let cold := s.rst.active && decide (5 ≤ s.rst.eff)
  if u < 3840 then wideActive s.rst || panelHeld s (u / 120) || s.rst.narrow.contains (1, 0, u)
  else if u < 4480 then wideActive s.rst || panelHeld s ((u - 4096) / 12) || s.rst.narrow.contains (1, 1, u - 4096)
  else if u < 5008 then cold || s.rst.narrow.contains (1, 2, u - 5000)
  else if u < 5100 then cold
  else if u < 5132 then cold || s.rst.narrow.contains (1, 3, u - 5100)
  else if u < 5328 then cold || s.rst.narrow.contains (1, 3, (u - 5200) / 4)
  else if 9000 ≤ u then cold
  else wideActive s.rst || panelHeld s ((u - 6000) / 64)

/-- A unit's wrapper passes requests to it (R37, R38). -/
def unitOpen (s : State) (u : Nat) : Bool := (wrapOf s u).st == WrapSt.running && !unitHeld s u

/-- A unit can send: its wrapper has not stopped, and a port is configured as an initiator, its RQ_VALID not held low by the
reset tree of its clock (R37, R66, R104). -/
def initSends (s : State) (i : Nat) : Bool :=
  initExists i && !(s.rst.active && decide (5 ≤ s.rst.eff)) &&
  (match initUnit i with
   | none => true
   | some u => ((wrapOf s u).st == WrapSt.running || (wrapOf s u).st == WrapSt.draining) && !unitHeld s u &&
     (!anyPort i || (bitOf (portCfg s ((i - 0x2000) / 64) ((i - 0x2000) % 64)) 0 && !portInReset s (i - 0x2000))))

/-! ### Shapes in force (R231, R243, R246, R252, R258, R279) -/

def c0rx (s : State) (place : Nat) : Bool :=
  let r := place / 16
  place % 16 != 10 && (bitOf (routerOf s r).c0F (48 + place % 16) || ((r == 0 || r == 15) && place % 16 == 0))
def c0tx (s : State) (place : Nat) : Bool :=
  !hubRouter (place / 16) && bitOf (routerOf s (place / 16)).c0F (32 + place % 16)

/-! ### Routes (R241, R251 to R254) -/

/-- The output links a packet takes: router and direction, 0 north, 1 east, 2 south, 3 west. -/
def routeHops (src dst : Nat) : List (Nat × Nat) :=
  let x0 := src / 16
  let y0 := src % 16
  let x1 := dst / 16
  let y1 := dst % 16
  let row := if x0 ≤ x1 then (List.range (x1 - x0)).map (fun i => (routerAt (x0 + i) y0, 1))
    else (List.range (x0 - x1)).map (fun i => (routerAt (x0 - i) y0, 3))
  let col := if y0 ≤ y1 then (List.range (y1 - y0)).map (fun i => (routerAt x1 (y0 + i), 0))
    else (List.range (y0 - y1)).map (fun i => (routerAt x1 (y0 - i), 2))
  row ++ col

def linkPeer (r d : Nat) : Nat := if d = 0 then r + 1 else if d = 1 then r + 16 else if d = 2 then r - 1 else r - 16
def linkBack (d : Nat) : Nat := (d + 2) % 4
def halfClosed (s : State) (r d : Nat) : Bool :=
  nbit (routerOf s r).closed d || !bitOf (routerOf s r).portenF (16 + d)
/-- A link closed at either end. -/
def linkClosed (s : State) (r d : Nat) : Bool := halfClosed s r d || halfClosed s (linkPeer r d) (linkBack d)
/-- A link that retrains. -/
def linkDown (s : State) (r d : Nat) : Bool :=
  bitOf (routerOf s r).link (4 + d) || bitOf (routerOf s (linkPeer r d)).link (4 + linkBack d)
def routerBusy (s : State) (r : Nat) : Bool := bitOf (routerOf s r).chg 63

/-- What a packet meets on its way: nothing, a router in change or a retraining link where it waits, or the router whose
next link is closed. -/
inductive Way where
  | clear
  | waits
  | shut (r : Nat)
  deriving DecidableEq, Repr

def wayOf (s : State) (dst : Nat) : List (Nat × Nat) → Way
  | [] => if routerBusy s dst then .waits else .clear
  | (r, d) :: t =>
    if routerBusy s r then .waits
    else if linkClosed s r d then .shut r
    else if linkDown s r d then .waits
    else wayOf s dst t
def way (s : State) (src dst : Nat) : Way := wayOf s dst (routeHops src dst)

/-- Responses discarded at a router (R263). -/
def dropCount (s : State) (r : Nat) : State :=
  let x := routerOf s r
  routerPut s r { x with link := satFld x.link 31 16 1 }

/-! ### Targets -/

/-- A request done by an engine's memories (R108, R110, R111). -/
def engPerform (s : State) (r : Req) : State :=
  let e := reqEng r
  let w0 := reqEngWord r
  let x := eng s e
  let ue := fun (i : Nat) => eccKind (s.fresh + 2 * i) (r.flips.getD i 0) == .uncorrectable
  if r.isRead then
    let ws := (List.range r.nWords).map (fun i => eccRead (s.fresh + 2 * i) (engWord x (w0 + i)) (r.flips.getD i 0))
    let s1 := (List.range r.nWords).foldl (fun t i => if ue i then faultLog t 0x04 e ((w0 + i) % 4096) else t) s
    respond (bump s1 (2 * r.nWords)) [r.rdr ws]
  else
    let y := (List.range r.nWords).foldl (fun y i =>
      engStoreWord y (s.fresh + 2 * i) (w0 + i) (r.be i) (r.dataWord i) (r.flips.getD i 0)) x
    let s1 := (List.range r.nWords).foldl (fun t i =>
      if ue i = true ∧ r.be i ≠ 0 ∧ r.be i ≠ 0xFF then faultLog t 0x04 e ((w0 + i) % 4096) else t) s
    respond (bump (engPut s1 e y) (2 * r.nWords)) [r.ack]

/-- What a read of several registers has given so far: their words, the last ERR code one drew, and whether one has been
read. -/
structure RegGot where
  ws : List PWord := []
  code : Nat := 0
  any : Bool := false
  s : State
  deriving DecidableEq, Repr

/-- One word more: a word that holds no register, or none the initiator may read, gives 0 (log entry 9). -/
def regGet (i : Nat) (g : RegGot) (a : Nat) : RegGot :=
  let known := (regOf a).isSome
  let p := addrRead g.s i a
  if p.1 = 0 then { g with ws := g.ws ++ [{ val := p.2.1, pois := false }], any := true, s := p.2.2 }
  else { g with ws := g.ws ++ [zeroWord], code := if known then p.1 else g.code }

/-- Registers (R30, R235, R236): a read returns every register of the blocks it covers, a write sets the bytes it enables, in
order up to the first one refused. An answer does not outlive a reset that clears the network. -/
def regServe (s : State) (r : Req) : State :=
  let i := r.h.init.toNat
  let say := fun (t : State) (x : Resp) => if t.rst.active && decide (5 ≤ t.rst.eff) then t else respond t [x]
  if r.isRead then
    let g := ((List.range r.nWords).map (fun k => 8 * (r.word0 + k))).foldl (regGet i) { s := s }
    if g.any then respond g.s [r.rdr g.ws]
    else if g.code = 0 then respond (bump s 1) [r.err (otherCode s)]
    else respond g.s [r.err g.code]
  else if r.isWrite then
    let p := (List.range r.nWords).foldl (fun (o : RegOut) k =>
      if o.code ≠ 0 ∨ r.be k = 0 then o else addrWriteBe o.s i (8 * (r.word0 + k)) (r.dataWord k).val (r.be k)) { s := s }
    say p.s (if p.code = 0 then r.ack else r.err p.code)
  else respond s [r.err 4]

/-- The unit whose wrapper stands before a register block: the one in whose slot R230 places it. The blocks of the hub and of
the Darners have their slot's. -/
def regUnit (o : Nat) : Option Nat :=
  if o < 0x4000000 then some 5086
  else if o < 0x10000000 then some (5060 + min 3 ((o - 0x4000000) / 0x100000))
  else if o < 0x20000000 then some (9000 + min 399 ((o - 0x10000000) / 0x10000))
  else if o < 0x30000000 then some (5000 + min 7 ((o - 0x20000000) / 0x1000000))
  else if o < 0x40000000 then some (5100 + min 31 ((o - 0x30000000) / 0x100000))
  else if o < 0x50000000 then some (4096 + min 3071 ((o - 0x40000000) / 0x1000) / 8)
  else if o < 0x50F00000 then some ((o - 0x50000000) / 0x1000)
  else none

/-- The bytes of a request's data. -/
def Req.bytes (r : Req) : List Byte := (List.range r.nWords).flatMap (fun k => leBytes 8 (r.dataWord k).val.toNat)

/-- The hub window (R633). -/
def winServe (s : State) (r : Req) : State :=
  let i := r.h.init.toNat
  let o := r.a % 0x2000
  if s.rst.hubLoading then respond s [r.err 2]
  else if r.cmd = .wr ∧ o / 32 = 0 then
    if 4 ≤ (s.svc.host.filter (fun m => m.1 == i)).length ∨ 64 ≤ s.svc.host.length then respond s [r.err 0x10]
    else respond { s with svc := { s.svc with host := s.svc.host ++ [(i, r.bytes)] } } [r.ack]
  else if r.isRead = true ∧ o / 32 = 0x80 then
    match takeFirst (fun (m : OutMsg) => m.path == 2 && m.init == i) s.svc.outbox with
    | some (m, rest) =>
      let bs := (m.bytes ++ List.replicate (32 * r.h.len) 0).take (32 * r.h.len)
      respond { s with svc := { s.svc with outbox := rest } } [r.rdr ((wordsOf bs).map (fun w => { val := w, pois := false }))]
    | none =>
      respond s [r.rdr ((List.range (4 * r.h.len)).map (fun k => { val := if k = 0 then 0xFF else 0, pois := false }))]
  else respond s [r.err 4]

/-- A unit's wrapper passes a request of an initiator: it is open, or the request is the configuration loader's and the unit
an engine of a panel that is isolated (R37, R419). -/
def unitAdmits (s : State) (u i : Nat) : Bool :=
  unitOpen s u || (i == 0x11 && decide (u < 3840) && (panelOf s (u / 120)).iso != 0 && !unitHeld s u)

/-- A target port's buffer of a class is full (R69). -/
def portFull (s : State) (k : Nat) (r : Req) : Bool :=
  decide (4 ≤ (s.noc.accepted.filter (fun q => q.unit == 6000 + k && q.buf && q.h.cls == r.h.cls)).length)

/-- A request waits in the network, at the router it has reached. -/
def nocWait (s : State) (r : Req) : State := { s with noc := { s.noc with transit := s.noc.transit ++ [r] } }

/-- A request reaches what it is for, through the unit's wrapper (R30, R37, R66, R69, R236). `busy` says that the memory port
it needs is wanted in every cycle, or that user logic holds off TQ_VALID. -/
def nocServe (s : State) (r : Req) (d : Dest) (busy : Bool) : State :=
  let i := r.h.init.toNat
  let take := fun (t : State) (u : Nat) => { t with noc := { t.noc with accepted := t.noc.accepted ++ [{ r with unit := u }] } }
  match d.kind with
  | .mem m => if unitOpen s (5000 + m) then guardReq s m r else respond s [r.err 2]
  | .bank =>
    let n := reqBank r
    let u := bankGroupKey n
    if unitOpen s u = false then respond s [r.err 2]
    else
      let c := bankAdmit s r
      if c = 0 then (if busy then take s u else bankPerform s r)
      else if c = 257 then take s u
      else if c = 256 then bankWake (take s u) n 2
      else respond s [r.err c]
  | .engine =>
    let e := reqEng r
    if unitAdmits s e i = false then respond s [r.err 2]
    else if r.isAtomic then respond s [r.err 4]
    else if engRefuses s r then respond (bump s 1) [r.err (otherCode s)]
    else if busy then take s e
    else engPerform s r
  | .port k =>
    if unitOpen s (6000 + k) = false then respond s [r.err 2]
    else if r.isAtomic then respond s [r.err 4]
    else if bitOf (portCfg s (k / 64) (k % 64)) 1 = false then respond (bump s 1) [r.err (otherCode s)]
    else if portFull s k r then nocWait s r
    else if busy = true ∨ portInReset s k = true then
      { s with noc := { s.noc with accepted := s.noc.accepted ++ [{ r with unit := 6000 + k, buf := true }] } }
    else
      take { s with noc := { s.noc with
        accepted := s.noc.accepted.map (fun q => if q.unit = 6000 + k then { q with buf := false } else q) } } (6000 + k)
  | .reg =>
    if (regUnit (regSplit r.a).2).any (fun u => !unitAdmits s u i) then respond s [r.err 2] else regServe s r
  | .window => if unitOpen s (if d.place = 0 then 5087 else 5088) then winServe s r else respond s [r.err 2]

/-! ### Holding and passing (R239, R247 to R249, R255) -/

def domAsleep (s : State) (n : Nat) : Bool := decide (2 ≤ (domOf s n).cur)

/-- A slot's holding space in a request's class is full (R248). -/
def heldFull (s : State) (r : Req) (place : Nat) : Bool :=
  decide (4 ≤ (s.noc.held.filter (fun q => q.slot == place && q.h.cls == r.h.cls)).length)

/-- The last router: a closed slot, C0 where it is not accepted, a sleeping domain, or the target. -/
def nocArrive (s : State) (r : Req) (d : Dest) (busy : Bool) : State :=
  let x := routerOf s (d.place / 16)
  let sl := d.place % 16
  if sl ≠ 12 ∧ bitOf x.portenF sl = false then respond s [r.err 5]
  else if r.h.cls = 0 ∧ c0rx s d.place = false then respond s [r.err 6]
  else match d.dom with
    | none => nocServe s r d busy
    | some n =>
      if domAsleep s n then
        if heldFull s r d.place then nocWait s r
        else wakeDomain { s with noc := { s.noc with held := s.noc.held ++ [r] } } n 2
      else
        let t := if (domOf s n).cur = 1 then domPut s n { domOf s n with cur := 0 } else s
        nocServe t r d busy

/-- A packet that waits in the network has come to its last router: it waits for holding space or for a port's buffer. -/
def nocStuck (s : State) (q : Req) : Bool :=
  match addrDest s q.a with
  | none => false
  | some d => way s (initPlace q.h.init.toNat / 16) (d.place / 16) == .clear

/-- A packet of a class on the route from a slot to a router waits behind another of its class: one that waits in the input
channel of a router on that route (R248), or a request of the same slot for the same destination slot (R239). -/
def nocBehind (s : State) (cls src dst : Nat) (isReq : Bool) : Bool :=
  s.noc.transit.any (fun q =>
    q.h.cls.val == cls &&
    ((isReq && initPlace q.h.init.toNat == src && q.slot == dst) ||
     (nocStuck s q &&
      (match (routeHops (initPlace q.h.init.toNat / 16) (q.slot / 16)).getLast? with
       | some l => (routeHops (src / 16) (dst / 16)).contains l
       | none => initPlace q.h.init.toNat == src))))

/-- A packet injected travels (R241, R252, R254): a closed link's router refuses it. -/
def nocPass (s : State) (r0 : Req) (busy : Bool) : State :=
  match addrDest s r0.a with
  | none => respond s [r0.err 0x0A]
  | some d =>
    let src := initPlace r0.h.init.toNat
    let r := { r0 with slot := d.place }
    if nocBehind s r.h.cls src d.place true then nocWait s r
    else match way s (src / 16) (d.place / 16) with
      | .waits => nocWait s r
      | .shut x => respond s [{ r.err 5 with place := 16 * x + 12 }]
      | .clear => nocArrive s r d busy

/-- What waits on its way goes on where it can, in order. -/
def transitGo (s : State) : State :=
  s.noc.transit.foldl (fun t r => nocPass t r false) { s with noc := { s.noc with transit := [] } }

/-- Requests held for domains that are ready are delivered, in arrival order (R247); the others are held on. -/
def heldGo (s : State) : State :=
  transitGo (s.noc.held.foldl (fun t r =>
    match addrDest t r.a with
    | none => t
    | some d => nocArrive t r d false) { s with noc := { s.noc with held := [] } })

/-! ### Injection (R29, R235, R240, R243) -/

def respTmo (s : State) (i : Nat) : Nat := fld (routerOf s (initPlace i / 16)).hold 47 32

/-- Whether the interface keeps a request back: its tag is dead, or a C0 request follows another too soon. -/
def ifaceWaits (s : State) (r : Req) : Bool :=
  s.noc.dead.contains (r.h.init.toNat, r.h.tag.toNat) ||
  (r.h.cls == 0 && s.noc.gap.contains (initPlace r.h.init.toNat))

/-- The write transfer of an engine that a packet belongs to, its words taken from data memory, only they enabled (R152, R236). -/
def xferHit (t : Xfer) (w : Nat) : Bool := decide (t.addr / 8 ≤ w) && decide (w < t.addr / 8 + t.len)
def xferOf (x : Engine) (id : Nat) : Option Xfer :=
  x.xfers.find? (fun t => t.write && t.asked.any (fun q => q.1 == id))
def xferImm (t : Xfer) (r : Req) : Word :=
  let unit := fun (u : Nat) => (List.range 4).foldl (fun m j => if xferHit t (r.word0 + 4 * u + j) then m + 255 * 2 ^ (8 * j) else m) 0
  BitVec.ofNat 64 (unit 0 + (if r.h.len ≤ 1 then 0 else unit (r.h.len - 1) * 2 ^ 32))
def xferWord (free : Nat) (x : Engine) (t : Xfer) (w : Nat) (d : PWord) (flip : BitVec 80) : PWord :=
  if xferHit t w then
    let l := tget {} x.dm ((t.laddr + (w - t.addr / 8)) % 2048)
    eccRead free { val := l.val, pois := l.pois } flip
  else d
def xferFill (s : State) (r : Req) : Req :=
  let i := r.h.init.toNat
  if 0x1000 ≤ i ∧ i < 0x1F00 then
    let x := eng s (i - 0x1000)
    match xferOf x r.id with
    | none => r
    | some t =>
      if r.cmd = .wr then { r with
        h := { r.h with imm := xferImm t r }
        data := (List.range r.nWords).map (fun k => xferWord (s.fresh + 2 * k) x t (r.word0 + k) (r.dataWord k) (r.src.getD k 0))
        src := [] }
      else if r.cmd = .wri8 then
        let w := xferWord s.fresh x t r.word0 r.imm (r.src.getD 0 0)
        { r with h := { r.h with imm := w.val, immPois := w.pois }, src := [] }
      else r
  else r

/-- Words of a write transfer that the code cannot correct are reported to the fault log (R111, R607). -/
def xferLog (s : State) (r : Req) : State :=
  let i := r.h.init.toNat
  if r.src.isEmpty = true ∨ i < 0x1000 ∨ 0x1F00 ≤ i ∨ (r.cmd ≠ .wr ∧ r.cmd ≠ .wri8) then s
  else
    match xferOf (eng s (i - 0x1000)) r.id with
    | none => s
    | some t => bump ((List.range r.nWords).foldl (fun u k =>
        if xferHit t (r.word0 + k) = true ∧ eccKind (s.fresh + 2 * k) (r.src.getD k 0) = .uncorrectable then
          faultLog u 0x04 (i - 0x1000) ((t.laddr + (r.word0 + k - t.addr / 8)) % 2048)
        else u) s) 256

/-- A request enters the network. -/
def nocInject (s : State) (r : Req) (busy : Bool) : State :=
  let i := r.h.init.toNat
  let r1 := xferFill s r
  let s0 := xferLog s r
  let o : Outst := { init := i, tag := r.h.tag.toNat, cls := r.h.cls, addr := r.a, len := r.h.len, id := r.id }
  let s1 := { s0 with noc := { s0.noc with
    outst := s.noc.outst ++ [o], gap := if r.h.cls = 0 then s.noc.gap ++ [initPlace i] else s.noc.gap } }
  nocPass (if r.cmd = .wr then statBytes s1 i r.h.len else s1) r1 busy

/-- A port's buffer of requests of a class is full, so that RQ_READY is low (R69). -/
def rqFull (s : State) (r : Req) : Bool :=
  anyPort r.h.init.toNat &&
  decide (4 ≤ (s.noc.iface.filter (fun q => q.h.init == r.h.init && q.h.cls == r.h.cls)).length)

/-- A packet of one of an engine's transfers (R151, R152, R170): its direction, its class, an early transfer's reads RDE, words of
the transfer that none of its packets has asked for yet, and no block that it leaves untouched. -/
def xferAsks (t : Xfer) (r : Req) : Bool :=
  let kind := if t.write then r.cmd == .wr || r.cmd == .wri8 else if t.early.isSome then r.cmd == .rde else r.cmd == .rd
  let first := max (t.addr / 8) r.word0
  let last := min (t.addr / 8 + t.len) (r.word0 + r.nWords)
  kind && t.cls == r.h.cls.val && decide (first < last) &&
  decide (t.addr / 32 * 4 ≤ r.word0) && decide (r.word0 + r.nWords ≤ (t.addr / 8 + t.len + 3) / 4 * 4) &&
  t.asked.all (fun q => decide (q.2.1 + q.2.2 ≤ first) || decide (last ≤ q.2.1))

/-- An engine sends nothing but the packets of its transfers; the transfer a packet belongs to notes it. None where there is no
such transfer. -/
def xferNote (s : State) (r : Req) : Option State :=
  let i := r.h.init.toNat
  if i < 0x1000 ∨ 0x1F00 ≤ i then some s
  else
    let x := eng s (i - 0x1000)
    match x.xfers.find? (fun t => xferAsks t r) with
    | none => none
    | some t =>
      let first := max (t.addr / 8) r.word0
      let last := min (t.addr / 8 + t.len) (r.word0 + r.nWords)
      let u := { t with asked := t.asked ++ [(r.id, first, last - first)] }
      some (engPut s (i - 0x1000) { x with xfers := x.xfers.map (fun v => if v = t then u else v) })

/-- A request as its initiator gives it to its interface; it takes the number of its injection. -/
def nocRequest (s0 : State) (r0 : Req) (busy : Bool) : State :=
  let i := r0.h.init.toNat
  let r := { r0 with id := s0.noc.seq }
  match (if initSends s0 i = false ∨ rqFull s0 r = true then none else xferNote s0 r) with
  | none => s0
  | some s1 =>
  let s := { s1 with noc := { s1.noc with seq := s0.noc.seq + 1 } }
  if r.legal = false ∨ (addrDest s r.a).isNone = true then respond s [r.refusal 0x0A]
  else if r.h.cls = 0 ∧ (2 < r.h.len ∨ c0tx s (initPlace i) = false) then respond s [r.refusal 0x0B]
  else if ifaceWaits s r then { s with noc := { s.noc with iface := s.noc.iface ++ [r] } }
  else nocInject s r busy

/-- The requests the interfaces of a slot kept back that may go do so, oldest first. -/
def ifaceGo (s : State) (place : Nat) : State :=
  s.noc.iface.foldl (fun t r =>
    if initPlace r.h.init.toNat = place ∧ ifaceWaits t r = false then
      nocInject { t with noc := { t.noc with iface := t.noc.iface.erase r } } r false
    else t) s

/-! ### Responses (R237 to R240, R247) -/

/-- What an engine does with a response to one of its transfers (R152, R170): an ERR brings no data and no verdict
(log entry 45). -/
def xferTake (x : Engine) (p : Resp) (o : Outst) : Engine :=
  let w0 := if o.len = 0 then o.addr / 8 else o.addr / 32 * 4
  let n := if o.len = 0 then 1 else 4 * o.len
  match takeFirst (fun (t : Xfer) => t.asked.any (fun q => q.1 == o.id)) x.xfers with
  | none => x
  | some (t, _) =>
    let hits := (List.range n).filter (fun i => xferHit t (w0 + i))
    let bad := p.pend && p.code == 2
    let t1 := { t with
      got := t.got + hits.length, err := t.err || p.kind == .err || bad, verd := if bad then 2 else t.verd }
    let pend : BitVec 4 := match t.early with
      | some v => BitVec.ofNat 4 (1 <<< v)
      | none => 0
    let put := fun (y : Engine) (i : Nat) =>
      let d := p.data.getD i zeroWord
      dmPut y ((t.laddr + (w0 + i - t.addr / 8)) % 2048) { val := d.val, pois := d.pois, pend := pend }
    let y := if p.kind = .rdr then hits.foldl put x else x
    { y with xfers := x.xfers.map (fun u => if u = t then t1 else u) }

/-- What a port does with a response (R66 to R69, R104): with RS_READY low it goes into the port's buffer; otherwise what
is buffered passes first. -/
def portTake (s : State) (k : Nat) (p : Resp) (ready : Bool) : State :=
  if ready = true ∧ portInReset s k = false then portPut s k { rs := some p, buf := [] }
  else portPut s k { portOf s k with buf := (portOf s k).buf ++ [p] }

/-- A port stops taking responses of a class once its buffer is full (R69). -/
def portRefuses (s : State) (p : Resp) (ready : Bool) : Bool :=
  anyPort p.init && (!ready || portInReset s (p.init - 0x2000)) &&
  decide (4 ≤ ((portOf s (p.init - 0x2000)).buf.filter (fun q => q.travels == p.travels)).length)

/-- What the debug access port does with one (R583). -/
def dapTake (s : State) (p : Resp) : State :=
  let d := s.dbg
  let w := p.data.getD (d.dapAddr / 8 % 4) zeroWord
  let t := { s with dbg := { d with
    dapBusy := false, dapRes := if p.kind = .err then 1 else 0
    dapData := if p.kind = .err then BitVec.ofNat 64 (p.code % 256) else if p.kind = .rdr then w.val else d.dapData
    dapPois := p.kind == .rdr && w.pois } }
  if p.kind = .rdr ∧ w.pois = true then faultLog t 0x04 0x10 (d.dapAddr / 8 % 2 ^ 32) else t

/-- What a hub initiator does with one (R33): a read completes with its poison status set where a word is poisoned, and a
reliability error is logged; the object bridge passes on what it waits for (R655). -/
def hubTake (s : State) (p : Resp) : State :=
  let i := p.init
  let bad := p.kind == .rdr && p.data.any (fun d => d.pois)
  let s1 := if p.kind = .rdr then
      { s with noc := { s.noc with hubPois := s.noc.hubPois.filter (· != i) ++ (if bad then [i] else []) } } else s
  let s2 := if bad then faultLog s1 0x04 i (p.addr / 8 % 2 ^ 32) else s1
  match s2.svc.wait with
  | some w => if i = 3 ∧ w.tag = p.tag then pubAnswer s2 w p else s2
  | none => s2

/-- A response reaches its requester's unit (R38, R247): discarded and counted while the unit is stopped, waking or in
reset. -/
def respGive (s : State) (p : Resp) (o : Option Outst) (ready : Bool) : State :=
  let i := p.init
  match initUnit i with
  | some u =>
    let st := (wrapOf s u).st
    if st = WrapSt.stopped ∨ st = WrapSt.waking ∨ unitHeld s u = true then
      dropCount (wrapPut s u { wrapOf s u with discarded := (wrapOf s u).discarded + 1 }) (initPlace i / 16)
    else if u < 3840 then
      match o with
      | some q => engPut s u (xferTake (eng s u) p q)
      | none => s
    else if 6000 ≤ u then portTake s (u - 6000) p ready
    else if i = 0x10 then dapTake s p
    else if i < 4 then hubTake s p
    else s
  | none => s

/-- The request that an answer of the requester's own interface is for. -/
def Resp.request (p : Resp) : Outst := { init := p.init, tag := p.tag, cls := p.cls, addr := p.addr, len := p.len, id := p.id }

/-- A response taken off its way comes to its requester (R237, R240, R254, R256); one whose request is no longer outstanding
is discarded. -/
def respDeliver (s : State) (p : Resp) (e : RespEnv) : State :=
  let home := initPlace p.init / 16
  if p.own then respGive (statErr s p.init p.cls) p (some p.request) e.ready
  else if s.noc.dead.contains (p.init, p.tag) then dropCount s home
  else match takeFirst (fun (o : Outst) => o.init == p.init && o.id == p.id) s.noc.outst with
    | none => dropCount s home
    | some (o, rest) =>
      let err := p.kind == .err || (p.pend && p.code == 2)
      let s1 := statLat (statBytes { s with noc := { s.noc with outst := rest } } p.init (p.data.length / 4)) p.init o.cls e.lat err
      respGive s1 p (some o) e.ready

/-- The requests of a port's buffer up to one that user logic answers have passed to it (R69). -/
def portPassed (k cls : Nat) : List Req → Req → List Req
  | [], _ => []
  | q :: t, r => if q = r then q :: t else (if q.unit = 6000 + k ∧ q.h.cls.val = cls then { q with buf := false } else q) :: portPassed k cls t r

/-- The answer user logic gives to a request accepted by its port: data, an acknowledgement, or its error (R66, R68); while the
port's reset tree is asserted TS_VALID is low (R104). -/
def portAnswer (s : State) (i tag : Nat) (k : RKind) (user : List PWord) : Option (Resp × State) :=
  let mine := fun (r : Req) => decide (6000 ≤ r.unit ∧ r.unit < 8048) && !portInReset s (r.unit - 6000) &&
    r.h.init.toNat == i && r.h.tag.toNat == tag &&
    (match k with
     | .rdr => r.isRead
     | .wra => r.isWrite
     | .err => true
     | .atr => false)
  match takeFirst mine s.noc.accepted with
  | none => none
  | some (r, _) =>
    let t := { s with noc := { s.noc with accepted := (portPassed (r.unit - 6000) r.h.cls s.noc.accepted r).erase r } }
    some (match k with
      | .rdr => (r.rdr ((List.range (4 * r.h.len)).map (fun i => user.getD i zeroWord)), transitGo t)
      | .wra => (r.ack, transitGo t)
      | _ => (r.err (otherCode s), transitGo (bump t 1)))

/-- An earlier response of its class from its slot to its requester's slot is still under way (R239). -/
def respBehind (s : State) (p : Resp) : Bool :=
  match takeFirst (fun q => decide (q = p)) s.noc.responses with
  | none => s.noc.responses.any (fun q => !q.own && q.place == p.place && initPlace q.init == initPlace p.init && q.travels == p.travels)
  | some _ => (s.noc.responses.takeWhile (fun q => decide (q ≠ p))).any (fun q =>
      !q.own && q.place == p.place && initPlace q.init == initPlace p.init && q.travels == p.travels)

/-- A response moves (R237, R239, R248, R254): it waits behind another, at a router in change, a retraining link or a port
whose buffer is full, is discarded at a closed link, or comes to its requester. -/
def respMove (s : State) (p : Resp) (e : RespEnv) : State :=
  let t := { s with noc := { s.noc with responses := s.noc.responses.erase p } }
  if portRefuses s p e.ready then s
  else if p.own then respDeliver t p e
  else if respBehind s p = true ∨ nocBehind s p.travels p.place (initPlace p.init) false = true then s
  else match way s (p.place / 16) (initPlace p.init / 16) with
    | .waits => s
    | .shut r => dropCount t r
    | .clear => respDeliver t p e

/-- The oldest response of a kind to a tag of an initiator arrives; where none is under way, user logic behind a target
port gives one. -/
def nocAnswer (s : State) (i tag : Nat) (k : RKind) (user : List PWord) (e : RespEnv) : State :=
  match s.noc.responses.find? (fun (p : Resp) => p.init == i && p.tag == tag && p.kind == k) with
  | some p => respMove s p e
  | none => match portAnswer s i tag k user with
    | some (p, t) => respMove (respond t [p]) p e
    | none => s

/-! ### Commands -/

def mkReq (cmd : NCmd) (h : Hdr) (data : List PWord) (v : ReqEnv) : Req := 
  { cmd := cmd, h := h, data := data, flips := v.flips, src := v.src }

/-- RD (R236). -/
def execNocRd (h : Hdr) (v : ReqEnv) (s : State) : Out := .next (nocRequest s (mkReq .rd h [] v) v.busy)
/-- RDE (R236, R321). -/
def execNocRde (h : Hdr) (v : ReqEnv) (s : State) : Out := .next (nocRequest s (mkReq .rde h [] v) v.busy)
/-- WR (R236). -/
def execNocWr (h : Hdr) (data : List PWord) (v : ReqEnv) (s : State) : Out := .next (nocRequest s (mkReq .wr h data v) v.busy)
/-- WRI1 (R236). -/
def execNocWri1 (h : Hdr) (v : ReqEnv) (s : State) : Out := .next (nocRequest s (mkReq .wri1 h [] v) v.busy)
/-- WRI2 (R236). -/
def execNocWri2 (h : Hdr) (v : ReqEnv) (s : State) : Out := .next (nocRequest s (mkReq .wri2 h [] v) v.busy)
/-- WRI4 (R236). -/
def execNocWri4 (h : Hdr) (v : ReqEnv) (s : State) : Out := .next (nocRequest s (mkReq .wri4 h [] v) v.busy)
/-- WRI8 (R236). -/
def execNocWri8 (h : Hdr) (v : ReqEnv) (s : State) : Out := .next (nocRequest s (mkReq .wri8 h [] v) v.busy)
/-- FADD (R195, R236). -/
def execNocFadd (h : Hdr) (v : ReqEnv) (s : State) : Out := .next (nocRequest s (mkReq .fadd h [] v) v.busy)
/-- SWAP (R195, R236). -/
def execNocSwap (h : Hdr) (v : ReqEnv) (s : State) : Out := .next (nocRequest s (mkReq .swap h [] v) v.busy)
/-- RSVRD (R195, R196, R236). -/
def execNocRsvrd (h : Hdr) (v : ReqEnv) (s : State) : Out := .next (nocRequest s (mkReq .rsvrd h [] v) v.busy)
/-- CWR (R195, R236). -/
def execNocCwr (h : Hdr) (v : ReqEnv) (s : State) : Out := .next (nocRequest s (mkReq .cwr h [] v) v.busy)
/-- RDR (R237). -/
def execNocRdr (init : BitVec 16) (tag : BitVec 10) (user : List PWord) (e : RespEnv) (s : State) : Out :=
  .next (nocAnswer s init.toNat tag.toNat .rdr user e)
/-- WRA (R237). -/
def execNocWra (init : BitVec 16) (tag : BitVec 10) (e : RespEnv) (s : State) : Out :=
  .next (nocAnswer s init.toNat tag.toNat .wra [] e)
/-- ATR (R237). -/
def execNocAtr (init : BitVec 16) (tag : BitVec 10) (e : RespEnv) (s : State) : Out :=
  .next (nocAnswer s init.toNat tag.toNat .atr [] e)
/-- ERR (R41, R237, R238). -/
def execNocErr (init : BitVec 16) (tag : BitVec 10) (e : RespEnv) (s : State) : Out :=
  .next (nocAnswer s init.toNat tag.toNat .err [] e)

/-- RESPONSE_TIMEOUT (R240): the interface answers with TIMEOUT and marks the tag dead. -/
def execResponseTimeout (init : BitVec 16) (tag : BitVec 10) (s : State) : Out :=
  let i := init.toNat
  match takeFirst (fun (o : Outst) => o.init == i && o.tag == tag.toNat) s.noc.outst with
  | none => .next s
  | some (o, rest) =>
    if respTmo s i = 0 then .next s
    else
      let s1 := { s with noc := { s.noc with outst := rest, dead := s.noc.dead ++ [(i, tag.toNat)] } }
      .next (respond s1 [{ init := i, tag := tag.toNat, kind := .err, code := 8, cls := o.cls, addr := o.addr, len := o.len, own := true, id := o.id }])
/-- DEAD_TAG_EXPIRE (R240): every request held back for the tag may go. -/
def execDeadTagExpire (init : BitVec 16) (tag : BitVec 10) (s : State) : Out :=
  .next (ifaceGo { s with noc := { s.noc with dead := s.noc.dead.filter (· != (init.toNat, tag.toNat)) } } (initPlace init.toNat))
/-- C0_GAP_EXPIRE (R243). -/
def execC0GapExpire (init : BitVec 16) (s : State) : Out :=
  let p := initPlace init.toNat
  .next (ifaceGo { s with noc := { s.noc with gap := s.noc.gap.filter (· != p) } } p)
/-- HOLD_TIMEOUT (R249): the wake itself goes on. -/
def execHoldTimeout (r : RouterId) (slot : Fin 16) (s : State) : Out :=
  let p := 16 * r.val + slot.val
  let mine := s.noc.held.filter (fun q => q.slot == p)
  if mine.isEmpty then .next s
  else
    let x := routerOf s r
    let s1 := respond { s with noc := { s.noc with held := s.noc.held.filter (fun q => q.slot != p) } } (mine.map (fun q => q.err 7))
    .next (transitGo (routerPut s1 r { x with hold := setBit x.hold (48 + slot.val) true }))

/-- A link's DOWN bits at both ends. -/
def linkMark (s : State) (r d : Nat) (down : Bool) : State :=
  let x := routerOf s r
  let s1 := routerPut s r { x with link := setBit x.link (4 + d) down, crcAt := tset [] x.crcAt d [] }
  let q := linkPeer r d
  let y := routerOf s1 q
  routerPut s1 q { y with link := setBit y.link (4 + linkBack d) down }
def linkExists (r d : Nat) : Bool :=
  match d with
  | 0 => decide (r % 16 < 15)
  | 1 => decide (r / 16 < 24)
  | 2 => decide (0 < r % 16)
  | _ => decide (0 < r / 16)

/-- LINK_CRC_ERROR (R251): `row` counts the replays of this unit in a row, this one included. -/
def execLinkCrcError (r : RouterId) (l : Fin 4) (row : Nat) (s : State) : Out :=
  if linkExists r l = false ∨ linkClosed s r l = true ∨ linkDown s r l = true then .next s
  else
    let x := routerOf s r
    let ts := (tget [] x.crcAt l).filter (fun t => decide (s.now < t + 1000)) ++ [s.now]
    let s1 := routerPut s r { x with link := satFld (satFld x.link 63 48 1) 47 32 1, crcAt := tset [] x.crcAt l ts }
    .next (if 8 ≤ row ∨ 64 ≤ ts.length then linkMark s1 r l true else s1)
/-- LINK_RETRAIN_DONE (R251). -/
def execLinkRetrainDone (r : RouterId) (l : Fin 4) (s : State) : Out :=
  if linkExists r l = false ∨ linkDown s r l = false ∨ nbit (routerOf s r).closed l = true then .next s
  else .next (transitGo (linkMark (faultLog s 0x0A r
    (r.val / 16 + 256 * (r.val % 16) + 65536 * l.val)) r l false))
/-- LINK_RETRAIN_FAIL (R251): the link is closed at both ends. -/
def execLinkRetrainFail (r : RouterId) (l : Fin 4) (s : State) : Out :=
  if linkExists r l = false ∨ linkDown s r l = false ∨ nbit (routerOf s r).closed l = true then .next s
  else
    let q := linkPeer r l
    let s1 := routerPut s r { routerOf s r with closed := nset (routerOf s r).closed l }
    let s2 := routerPut s1 q { routerOf s1 q with closed := nset (routerOf s1 q).closed (linkBack l) }
    .next (transitGo (faultLog s2 0x0B r (r.val / 16 + 256 * (r.val % 16) + 65536 * l.val)))

/-- The controller of an attachment point, and the units of a slot that R255 disables and enables. -/
def attachUnit (r : Nat) : List Nat :=
  if 1 ≤ r / 16 ∧ (r % 16 = 0 ∨ r % 16 = 15) then [5000 + (r / 16 - 1) / 6 + (if r % 16 = 0 then 0 else 4)] else []
def slotUnits (r slot : Nat) : List Nat :=
  if hubRouter r then
    (if r = 5 ∧ slot < 7 then [5080 + slot] else if r = 0 ∧ slot = 0 then [5087] else if r = 15 ∧ slot = 0 then [5088] else [])
  else
    let p := routerPanel r
    let t := routerTile r
    match slot with
    | 6 => [4096 + 12 * p + t]
    | 7 => (groupInits p (5 * (t % 3) + t / 3)).map (· - 0x1000)
    | 8 => if t / 3 = 0 then (groupInits p (5 * (t % 3) + 4)).map (· - 0x1000) else []
    | 9 => if t = 0 then (5100 + p) :: (List.range 4).map (fun l => 5200 + 4 * p + l) else []
    | 10 => attachUnit r
    | 11 => if t = 0 ∧ p % 8 = 0 then [5060 + p / 8] else []
    | n => if n < 6 ∧ t + 12 * n < 64 then [6000 + 64 * p + t + 12 * n] else []

/-- A unit enabled again: its wrapper opens once it is ready (R38, R40). -/
def wrapEnable (s : State) (u : Nat) : State :=
  match (wrapOf s u).st with
  | .draining => wrapPut s u { wrapOf s u with enableAfter := true, off := false }
  | .stopped => wrapPut s u { wrapOf s u with st := .waking, off := false }
  | _ => s

/-- What a unit's own chapter adds to its disable: a bank's background test finishes its region (R215, R227), a port's
publications end (R654), a controller's training stops (R285). -/
def unitLeave (s : State) (u : Nat) : State :=
  if 4096 ≤ u ∧ u < 4480 then
    groupFinish s (u - 4096)
  else if 5000 ≤ u ∧ u < 5008 ∧ mcState (mcOf s (u - 5000)) = 1 then mcPut s (u - 5000) (mcSet (mcOf s (u - 5000)) 0)
  else if 6000 ≤ u ∧ u < 8048 then withdraw s (fun w => fld w 15 11 == (u - 6000) / 64 && fld w 10 5 == (u - 6000) % 64)
  else s

/-- A unit is disabled for itself (R37); one that drains already is left to it (R40). -/
def unitClose (s : State) (u : Nat) : State :=
  if (wrapOf s u).st = .draining then s else unitLeave (unitOff s u) u

/-- Slots a change closes are disabled, slots it opens enabled (R255). -/
def slotsChange (s : State) (r : Nat) (old new : Word) : State :=
  ((List.range 16).filter (fun k => k != 12 && bitOf old k != bitOf new k)).foldl (fun t k =>
    (slotUnits r k).foldl (fun u x => if bitOf new k then wrapEnable u x else unitClose u x) t) s

/-- ROUTER_CHANGE (R252, R253): GO written. -/
def execRouterChange (r : RouterId) (s : State) : Out := .next (chgWrite s r 1)
/-- ROUTER_CHANGE_DONE (R252): the drain took `cycles` cycles. -/
def execRouterChangeDone (r : RouterId) (cycles : Nat) (s : State) : Out :=
  let x := routerOf s r
  if bitOf x.chg 63 = false ∨ 599 < cycles then .next s
  else
    let w := setFld (incFld (setBit x.chg 63 false) 31 16) 47 32 (max (fld x.chg 47 32) cycles)
    let s1 := routerPut s r { x with c0F := x.c0, qosF := x.qos, portenF := x.porten, img := [], chg := w }
    .next (transitGo (slotsChange s1 r x.portenF x.porten))
/-- ROUTER_CHANGE_ABORT (R253, R420): a change the loader started begins again. -/
def execRouterChangeAbort (r : RouterId) (s : State) : Out :=
  let x := routerOf s r
  if bitOf x.chg 63 = false then .next s
  else if x.img.isEmpty then
    .next (transitGo (routerPut s r { x with chg := setBit (setBit x.chg 63 false) 62 true }))
  else .next (routerPut s r { x with chg := setBit x.chg 62 true })
/-- STATS_WINDOW (R256, R267). -/
def execStatsWindow (r : RouterId) (k : Nat) (s : State) : Out :=
  if (routerInits r).length ≤ k then .next s
  else
    let x := routerOf s r
    let t := tget {} x.stats k
    let n := min 0xFFFFFFFF t.window
    .next (routerPut s r { x with stats := tset {} x.stats k { t with
      bytes := mkWord [(63, 32, max (fld t.bytes 63 32) n), (31, 0, n)], window := 0 } })
/-- STATS_CLEAR (R264): CLR written. -/
def execStatsClear (r : RouterId) (k : Nat) (s : State) : Out :=
  if (routerInits r).length ≤ k then .next s
  else
    let x := routerOf s r
    .next (routerPut s r { x with stats := tset {} x.stats k (statClear (tget {} x.stats k)) })
/-- LINK_COUNTERS_CLEAR (R263). -/
def execLinkCountersClear (r : RouterId) (s : State) : Out :=
  let x := routerOf s r
  .next (routerPut s r { x with link := setFld x.link 63 16 0 })

/-- ENG_PORT_WAIT_EXPIRE (R108): the oldest request that waits for the engine's memories takes its port. -/
def execEngPortWaitExpire (e : EngId) (s : State) : Out :=
  match takeFirst (fun (r : Req) => r.unit == e.val) s.noc.accepted with
  | none => .next s
  | some (r, rest) =>
    let t := { s with noc := { s.noc with accepted := rest } }
    .next (if engRefuses t r then respond (bump t 1) [r.err (otherCode t)] else engPerform t r)

end Sys2Proof.Machine
end

