-- ==== Sys2Proof/Machine/Dap.lean ====
section
/-! DEFINITION. The debug access master and the virtual terminal (R578, R583 to R585, R596). -/

namespace Sys2Proof.Machine
open Sys2Proof

/-- The lowest tag of an initiator that is neither outstanding nor dead (log entry 9). -/
def freeTag (s : State) (i : Nat) : Nat :=
  let used := fun (t : Nat) => s.noc.outst.any (fun o => o.init == i && o.tag == t) || s.noc.dead.contains (i, t) ||
    s.noc.iface.any (fun r => r.h.init.toNat == i && r.h.tag.toNat == t)
  ((List.range 1024).find? (fun t => !used t)).getD 0

/-- A request of one word in C2: an RD of the unit that holds it, or a WRI8. -/
def wordReq (s : State) (i a : Nat) (w : Option Word) (flips : List (BitVec 80)) : Req :=
  { cmd := if w.isSome then .wri8 else .rd
    h := { init := BitVec.ofNat 16 i, addr := BitVec.ofNat 48 a, len := if w.isSome then 0 else 1
           tag := BitVec.ofNat 10 (freeTag s i), cls := 2, imm := w.getD 0, immPois := false }
    data := [], flips := flips }

/-- Whether an address is that of a device register outside the consuming alias. -/
def regAddr (a : Nat) : Bool := decide (0x1F000000000 ≤ a) && decide (a < 0x1F800000000)

/-- What the level grants the DAP (R578). -/
def dapGrant (s : State) (a : Nat) (write : Bool) : Bool :=
  match dbgLevel s with
  | 0 => false
  | 1 => regAddr a && (match regOf a with
    | some r => if write then r.kind == .dbgCtl || r.kind == .dbgTrc else !r.kind.secret
    | none => !write)
  | _ => true

/-- A request of the debug access master (R583, R584): one outstanding; one not granted is not injected. -/
def dapGo (s : State) (addr : Nat) (w : Option Word) (v : ReqEnv) : State :=
  let a := addr / 8 * 8
  if nativeTap s = false ∨ s.dbg.dapBusy = true ∨ initSends s 0x10 = false then s
  else
    let d := { s.dbg with dapCmd := if w.isSome then 2 else 1, dapAddr := a, dapData := w.getD s.dbg.dapData, dapPois := false }
    if dapGrant s a w.isSome = false then { s with dbg := { d with dapRes := 2 } }
    else
      let r := wordReq s 0x10 a w v.flips
      nocRequest { s with dbg := { d with dapBusy := true } } r v.busy

/-- The consuming alias of a register's address (R585). -/
def aliasOf (a : Nat) : Nat := a + 0x800000000
/-- DBG_TXe and DBG_RXe (R598). -/
def dbgTxAddr (e : Nat) : Nat := 0x1F003100040 + e * 0x100
def dbgRxAddr (e : Nat) : Nat := dbgTxAddr e + 8

/-- DAP_READ (R583, R584). -/
def execDapRead (addr : Addr) (v : ReqEnv) (s : State) : Out := .next (dapGo s addr.toNat none v)
/-- DAP_WRITE (R583, R584). -/
def execDapWrite (addr : Addr) (w : Word) (v : ReqEnv) (s : State) : Out := .next (dapGo s addr.toNat (some w) v)
/-- ALIAS_READ (R585): of a register's alias by an initiator; every one but the debug access master at FULL draws DENIED. -/
def execAliasRead (init : BitVec 16) (addr : Addr) (s : State) : Out :=
  let a := addr.toNat
  if a < 0x1F800000000 ∨ 0x1FC00000000 ≤ a then .next s
  else if init = 0x10 then .next (dapGo s a none { busy := false, flips := [] })
  else .next (nocRequest s (wordReq s init.toNat a none []) false)
/-- VT_TX_WRITE (R596): engine e writes DBG_TXe. -/
def execVtTxWrite (e : EngId) (v : Word) (s : State) : Out :=
  .next (nocRequest s (wordReq s (0x1000 + e.val) (dbgTxAddr e) (some v) []) false)
/-- VT_TX_READ (R596): the debug access master reads DBG_TXe through its alias. -/
def execVtTxRead (e : EngId) (s : State) : Out :=
  .next (dapGo s (aliasOf (dbgTxAddr e)) none { busy := false, flips := [] })
/-- VT_RX_WRITE (R596): the debug access master writes DBG_RXe. -/
def execVtRxWrite (e : EngId) (v : Word) (s : State) : Out :=
  .next (dapGo s (dbgRxAddr e) (some v) { busy := false, flips := [] })
/-- VT_RX_READ (R596): engine e reads DBG_RXe. -/
def execVtRxRead (e : EngId) (s : State) : Out :=
  .next (nocRequest s (wordReq s (0x1000 + e.val) (dbgRxAddr e) none []) false)

end Sys2Proof.Machine
end

