-- ==== Sys2Proof/Machine/Dma.lean ====
section
/-! DEFINITION. The DMA queues of lanes (R362 to R364, R374, R375). What a queue reads, its descriptors and its transmit
buffers, comes with the command (log entry 1); what it writes goes through the network. -/

namespace Sys2Proof.Machine
open Sys2Proof

/-- The class of a queue's requests (R375). -/
def dqClass (s : State) (l : Nat) : Fin 4 :=
  match fld (laneOf s l).dqCtl 61 60 with
  | 1 => 1
  | 3 => 3
  | _ => 2

/-- A queue of an ACTIVE port or link that is enabled and may send (R361, R362). -/
def dqRuns (s : State) (l : Nat) : Bool :=
  lnIsLead s l && lnState s l == 5 && bitOf (laneOf s l).dqCtl 63 && initSends s (0x3000 + l)

/-- A ring's descriptor address, and the index after one. -/
def dqAddr (ring : Word) (idx : Nat) : Nat := fld ring 47 4 * 16 + 16 * idx
def dqNext (ring : Word) (idx : Nat) : Nat := (idx + 1) % 2 ^ (fld ring 63 60 + 4)

/-- Fields of a descriptor's two words (R362). -/
def descAddr (d : List Word) : Nat := fld (d.getD 0 0) 47 0
def descLen (d : List Word) : Nat := fld (d.getD 0 0) 63 48
def descOwn (d : List Word) : Bool := bitOf (d.getD 1 0) 0
def descEof (d : List Word) : Bool := bitOf (d.getD 1 0) 1

/-- A queue's write of a short word. -/
def dqWord (s : State) (l a : Nat) (w : Word) : State :=
  let r := wordReq s (0x3000 + l) a (some w) []
  nocRequest s { r with h := { r.h with cls := dqClass s l } } false

/-- A queue's write of bytes inside one 512-byte block. -/
def dqBlock (s : State) (l a : Nat) (bs : List Byte) : State :=
  let r := wordReq s (0x3000 + l) (a / 32 * 32) none []
  let n := (a % 32 + bs.length + 31) / 32
  let first := (2 ^ min bs.length (32 - a % 32) - 1) * 2 ^ (a % 32)
  let last := 2 ^ ((a + bs.length - 1) % 32 + 1) - 1
  nocRequest s { r with
    cmd := .wr
    h := { r.h with cls := dqClass s l, len := n, imm := BitVec.ofNat 64 (first % 2 ^ 32 + (if n = 1 then 0 else last * 2 ^ 32)) }
    data := (wordsOf (List.replicate (a % 32) 0 ++ bs ++ List.replicate (32 * n - a % 32 - bs.length) 0)).map
      (fun w => { val := w, pois := false }) } false

/-- A queue's write of bytes, block by block. -/
def dqBytes : Nat → State → Nat → Nat → List Byte → State
  | 0, s, _, _, _ => s
  | fuel + 1, s, l, a, bs =>
    if bs.isEmpty then s
    else
      let n := min bs.length (512 - a % 512)
      dqBytes fuel (dqBlock s l a (bs.take n)) l (a + n) (bs.drop n)

/-- A length that R362 and the payload limit of the link allow for the lane's mode (R356). -/
def dqFits (s : State) (l n : Nat) : Bool :=
  if lnNative s l then decide (32 ≤ n ∧ n ≤ 32 * lkUnits s l) && n % 32 == 0 else decide (1 ≤ n ∧ n ≤ 16383)

/-- A queue's reads of n bytes at a, counted at its router (R256). -/
def dqReads (s : State) (l a n : Nat) (err : Bool) : State := statBlocks s (0x3000 + l) (dqClass s l).val a n err

def ethFRAME : Nat := 0x100
def ethERROR : Nat := 0x101

/-- A transmit buffer read whole and sound: a native frame, or a part of an Ethernet frame, sent at its end (R362). -/
def dqSend (s : State) (l : Nat) (bs : List Byte) (eof : Bool) : State :=
  if lnNative s l then lkOffer s l (if eof then 2 else 1) bs
  else
    let x := laneOf s l
    let all := x.txPart ++ bs
    let s1 := lanePut s l { x with txPart := if eof then [] else if x.txBad then [] else all, txBad := x.txBad && !eof }
    if eof = true ∧ x.txBad = false then
      lkSend (lkPut s1 l { lkOf s1 l with fromQueue := true }) l { kind := ethFRAME, bytes := all }
    else s1

/-- A frame aborted for a bad read (R363). -/
def dqAbort (s : State) (l : Nat) (eof : Bool) : State :=
  let x := laneOf s l
  let y := { x with err := satFld x.err 15 8 1 }
  if lnNative s l then lkSend (lanePut s l y) l { kind := ctlABORT }
  else if x.txBad then lanePut s l { x with txBad := !eof }
  else lkSend (lanePut s l { y with txPart := [], txBad := !eof }) l { kind := ethERROR }

/-- DMA_TX (R362, R363): the descriptor at TXIDX, and what its buffer read as. -/
def execDmaTx (l : LaneId) (desc : List Word) (buf : List PWord) (readErr : Bool) (s : State) : Out :=
  let x := laneOf s l
  let n := descLen desc
  if dqRuns s l = false ∨ x.stalled = true ∨ (lnNative s l = false ∧ fld x.cfg 20 19 = 0) then .next s
  else if descOwn desc = false then
    .next (lanePut (dqReads s l (dqAddr x.dqTx (fld x.dqCtl 54 36)) 16 false) l { x with stalled := true })
  else
    let bad := readErr || buf.any (fun w => w.pois) || !dqFits s l n || decide (8 * buf.length < n)
    let s0 := if dqFits s l n then dqReads (dqReads s l (dqAddr x.dqTx (fld x.dqCtl 54 36)) 16 false) l (descAddr desc) n readErr
      else dqReads s l (dqAddr x.dqTx (fld x.dqCtl 54 36)) 16 false
    let s1 := if bad then dqAbort s0 l (descEof desc)
      else dqSend s0 l ((buf.flatMap (fun w => leBytes 8 w.val.toNat)).take n) (descEof desc)
    let i := fld x.dqCtl 54 36
    let y := laneOf s1 l
    let s2 := lanePut s1 l { y with dqCtl := setFld y.dqCtl 54 36 (dqNext x.dqTx i) }
    .next (dqWord s2 l (dqAddr x.dqTx i + 8) (setBit (setBit (desc.getD 1 0) 0 false) 3 (bad || bitOf (desc.getD 1 0) 3)))

/-- A frame that found no descriptor (R362). -/
def dqDrop (s : State) (l : Nat) : State :=
  let x := laneOf s l
  lanePut s l { x with dqCtl := satFld x.dqCtl 15 0 1 }

/-- A frame is written to the descriptors from RXIDX on, in ring order; with none left that the queue owns, what is left of it
is dropped. -/
def dqFill (s0 : State) (l : Nat) (bad eof : Bool) : List Word → List Byte → State
  | d0 :: d1 :: ds, bs =>
    let s := dqReads s0 l (dqAddr (laneOf s0 l).dqRx (fld (laneOf s0 l).dqCtl 34 16)) 16 false
    if bitOf d1 0 = false ∨ fld d0 63 48 = 0 then dqDrop s l
    else
      let x := laneOf s l
      let i := fld x.dqCtl 34 16
      let n := min bs.length (fld d0 63 48)
      let last := decide (bs.length ≤ n)
      let w := setFld (setFld (setFld (setBit d1 0 false) 1 1 (last && eof).toNat) 2 2 (last && bad).toNat) 31 16 n
      let s1 := dqBytes 64 (lanePut s l { x with dqCtl := setFld x.dqCtl 34 16 (dqNext x.dqRx i) }) l (fld d0 47 0) (bs.take n)
      let s2 := dqWord s1 l (dqAddr x.dqRx i + 8) w
      if last then s2 else dqFill s2 l bad eof ds (bs.drop n)
  | _, _ => dqDrop s0 l

/-- DMA_RX (R362): a frame of an Ethernet port, or the oldest DMA frame a native link has delivered, with the descriptors from
RXIDX on as they read. -/
def execDmaRx (l : LaneId) (desc : List Word) (frame : List Byte) (bad : Bool) (s : State) : Out :=
  if dqRuns s l = false then .next s
  else if lnNative s l then
    let y := lkOf s l
    match takeFirst (fun (f : NSent) => dmaType f.ftype) y.got with
    | none => .next s
    | some (f, rest) => .next (dqFill (lkPut s l { y with got := rest }) l false (f.ftype == 2) desc f.payload)
  else if bitOf (laneOf s l).cfg 18 = true ∧ frame ≠ [] then .next (dqFill s l bad true desc frame)
  else .next s

end Sys2Proof.Machine
end

