-- ==== Sys2Proof/Machine/RClock.lean ====
section
/-! DEFINITION. Regional clocks: switching, gating and the reset trees (R91 to R104). -/

namespace Sys2Proof.Machine
open Sys2Proof

/-- The value the RSEL taps give: an unused one reads 0 (R92). -/
def rselValue (s : State) (r rsel : Nat) : Nat :=
  (if tapUsed s r 2 then rsel % 2 else 0) + (if tapUsed s r 3 then rsel / 2 % 2 * 2 else 0)

/-- The clock of a regional multiplexer starts a switch to the select value its taps give: SELSRC must be 0b01, the
clock enabled and set/reset released (R91). While a switch is under way the value is queued, the last one counting
(R94). -/
def execClockSwitchStart (r : RclkId) (rsel : Fin 4) (s : State) : Out :=
  let w := rclkCfg s r
  let x := rclkGet s r
  if fld w 47 46 = 1 ∧ bitOf w 41 = true ∧ panelReleased s (rclkPanel r) = true then
    let v := rselValue s r rsel
    match x.pend with
    | none => if x.src = v then .next s else .next (rclkPut s r { x with pend := some v })
    | some _ => .next (rclkPut s r { x with queued := some v })
  else .next s

/-- A switch completes (R94, R95): the new input drives the output, SW_CNT counts, and a queued value that differs
starts the next switch. -/
def execClockSwitchDone (r : RclkId) (s : State) : Out :=
  match (rclkGet s r).pend with
  | none => .next s
  | some _ => .next (rclkSwitched r s)

/-- RGATE stops the clock low (R97); a tap left unused reads 0 (R92). -/
def execClockGate (r : RclkId) (s : State) : Out :=
  let w := rclkCfg s r
  if fld w 45 44 = 1 ∧ bitOf w 41 = true ∧ tapUsed s r 1 = true then .next (rclkPut s r { rclkGet s r with gated := true })
  else .next s

/-- RGATE falls and the clock resumes at the next divider edge (R97). -/
def execClockUngate (r : RclkId) (s : State) : Out :=
  let x := rclkGet s r
  if x.gated then .next (rclkPut s r { x with gated := false }) else .next s

/-- A source asserts the reset tree (R100, R101). A tap source is active only where URST gives it one; the others are
held by the state that names them. A release not yet made is cancelled, since its count starts again (R103). -/
def execRegionalResetAssert (r : RclkId) (src : TreeSrc) (s : State) : Out :=
  let w := rclkCfg s r
  match src with
  | .rrst =>
    if (fld w 43 42 = 1 ∧ tapUsed s r 0 = true) ∨ fld w 43 42 = 2 then
      .next (treeAssert r (rclkPut s r { rclkGet s r with rrst := true }))
    else .next s
  | .force => if (rclkGet s r).forced then .next (treeAssert r s) else .next s
  | .wide => if wideActive s.rst then .next (treeAssert r s) else .next s
  | .panel => if panelHeld s (rclkPanel r) then .next (treeAssert r s) else .next s
  | .load => if panelReleased s (rclkPanel r) then .next s else .next (treeAssert r s)

/-- The tree releases at the second or third edge after every source of R100 has released (R102). The tap has released
when this command comes; the sources the state holds must be gone and the clock must run (log entry 2). -/
def execRegionalResetRelease (r : RclkId) (s : State) : Out :=
  if treeHeld s r = false ∧ rclkRuns s r = true then
    .next (portsFlush (rclkPut s r { rclkGet s r with rst := false, rrst := false }) r)
  else .next s

end Sys2Proof.Machine
end

