-- ==== Sys2Proof/Machine/Units.lean ====
section
/-! DEFINITION. Disabling and enabling units, the ends of their drains, and the opening of their wrappers, which ends a
domain's wake (R37 to R40, R70, R179, R215, R227, R247, R285, R364, R498, R501). -/

namespace Sys2Proof.Machine
open Sys2Proof

/-- A frame of a quad's streams still on the wire is aborted (R364). -/
def quadCut (s : State) (q : Nat) : State :=
  (List.range 4).foldl (fun t st =>
    let x := strmOf t q st
    if x.txOpen then lkSend (strmPut t q st { x with txOpen := false, txData := [] }) (lnLead t (4 * q + st)) { kind := ctlABORT }
    else t) s

/-- A unit stops at the end of its drain (R37, R40, R70, R285, R364). -/
def unitStop (s : State) (u : Nat) : State :=
  let again := (wrapOf s u).enableAfter
  let s1 := wrapStop s u
  if 5000 ≤ u ∧ u < 5008 then
    let s2 := ctrlStop s1 (u - 5000) false
    if again then ctrlStart s2 (u - 5000) else s2
  else if 5100 ≤ u ∧ u < 5132 then quadCut s1 (u - 5100)
  else if 5200 ≤ u ∧ u < 5328 then
    if (laneOf s1 (u - 5200)).txPart.isEmpty then s1 else dqAbort s1 (u - 5200) true
  else s1

/-- A wrapper opens; no response to a request its unit made before the stop is delivered afterwards (R38). -/
def wrapOpen (s : State) (u : Nat) : State :=
  leaveNet (wrapPut s u { wrapOf s u with st := .running, off := false }) (· == u)

/-- A unit is ready (R38): an engine's panel lets it be reached, a port's panel is not isolated (R419), a controller's
memory is READY or has FAILED. -/
def unitReady (s : State) (u : Nat) : Bool :=
  if u < 3840 then engPanelOpen s u
  else if 5000 ≤ u ∧ u < 5008 then mcState (mcOf s (u - 5000)) == 2 || mcState (mcOf s (u - 5000)) == 5
  else if 6000 ≤ u ∧ u < 8048 then (panelOf s ((u - 6000) / 64)).iso == 0
  else true

/-- A unit of a domain that wakes: its wrapper opens unless the unit is disabled or in reset. -/
def unitWoken (s : State) (u : Nat) : State :=
  let w := wrapOf s u
  if (w.st = WrapSt.stopped ∨ w.st = WrapSt.waking) ∧ w.off = false ∧ unitHeld s u = false ∧ unitReady s u = true then
    wrapOpen s u
  else s

/-- A domain wakes to ON (R179, R498, R501): engines that were off leave RESET, lanes take their requests, a panel's
seams are released. -/
def domWoken (s : State) (n : Nat) : State :=
  let d := domOf s n
  let s0 := domPut s n { d with cur := 0, replay := decide (d.lastsrc = 1) }
  let s1 :=
    if n < 0x200 then (if d.into = 3 then (List.range 8).foldl (fun t i => engTryLeave t (8 * n + i)) s0 else s0)
    else if 0x400 ≤ n ∧ n < 0x440 then (List.range 4).foldl (fun t i => lnPower t (4 * ((n - 0x400) % 32) + i)) s0
    else if 0x460 ≤ n ∧ n < 0x480 then
      let x := panelOf s0 (n - 0x460)
      panelPut s0 (n - 0x460) { x with seam := if x.iso = 0 then false else x.seam }
    else s0
  heldGo ((domUnits n).foldl unitWoken s1)

/-- The domains whose wake the opening of a unit's wrapper ends, its die's first. -/
def unitDoms (u : Nat) : List Nat :=
  match unitDomain u with
  | some n => [0x480 + domDie n] ++ (if 5100 ≤ u ∧ u < 5132 then [0x400 + (u - 5100)] else []) ++ [n]
  | none => if 9016 ≤ u then [0x480 + routerPanel (u - 9000) / 8] else []

/-- Whether the domain n can end its wake: a controller's once it is ready. -/
def domReady (s : State) (n : Nat) : Bool :=
  !(decide (0x440 ≤ n ∧ n < 0x448)) || unitReady s (5000 + (n - 0x440))

/-- UNIT_DISABLE (R37, R40). -/
def execUnitDisable (u : UnitRef) (s : State) : Out :=
  .next (unitClose s (unitKey u))
/-- DRAIN_EXPIRE (R37, R70, R364). -/
def execDrainExpire (u : UnitRef) (s : State) : Out :=
  let k := unitKey u
  .next (if (wrapOf s k).st = WrapSt.draining then unitStop (wrapAnswer s k 3) k else s)
/-- DRAIN_COMPLETE (R37): every accepted request has completed. -/
def execDrainComplete (u : UnitRef) (s : State) : Out :=
  let k := unitKey u
  .next (if (wrapOf s k).st = WrapSt.draining ∧ unitBusy s k = false then unitStop s k else s)
/-- UNIT_ENABLE (R38, R40, R285). -/
def execUnitEnable (u : UnitRef) (s : State) : Out :=
  let k := unitKey u
  let w := wrapOf s k
  let t := wrapEnable s k
  .next (if w.st = WrapSt.stopped ∧ 5000 ≤ k ∧ k < 5008 then ctrlVote (ctrlStart t (k - 5000)) (k - 5000) else t)
/-- WRAPPER_OPEN (R38, R247, R501): the wrapper of a unit that is ready opens; where its domain wakes, the wake ends and what
was held for it is delivered. -/
def execWrapperOpen (u : UnitRef) (s : State) : Out :=
  let k := unitKey u
  let s1 := (unitDoms k).foldl (fun t n => if (domOf t n).cur = 6 ∧ domReady t n = true then domWoken t n else t) s
  let asleep := (unitDomain k).any (fun n => domAsleep s1 n)
  .next (if (wrapOf s1 k).st = WrapSt.waking ∧ asleep = false ∧ unitHeld s1 k = false ∧ unitReady s1 k = true then
    wrapOpen s1 k else s1)

end Sys2Proof.Machine
end

