-- ==== Sys2Proof/Machine/Uluat.lean ====
section
/-! DEFINITION. The object dictionary and the requests of Uluat (R629 to R656). -/

namespace Sys2Proof.Machine
open Sys2Proof

/-! ### Objects (R643, R649 to R653, R656) -/

/-- An object's value: its type code, its length in bytes (the most of a VSTRING), and the levels its rights need, 3 for a right
that does not exist. -/
structure ObjTy where
  code : Nat
  len : Nat
  rd : Nat
  wr : Nat
  deriving DecidableEq, Repr

/-- What an index and sub-index name. -/
inductive ObjAt where
  | noObj
  | noSub
  | val (t : ObjTy)
  deriving DecidableEq, Repr

/-- A single U64. -/
def objU64 (sub rd wr : Nat) : ObjAt := if sub = 0 then .val { code := 5, len := 8, rd := rd, wr := wr } else .noSub

/-- A RECORD of sub-indices 1 to n; sub-index 0 is a public U8 constant. -/
def objRec (sub n : Nat) (t : ObjTy) : ObjAt :=
  if sub = 0 then .val { code := 2, len := 1, rd := 0, wr := 3 } else if sub ≤ n then .val t else .noSub

/-- The highest sub-index of a RECORD. -/
def recTop (index : Nat) : Nat :=
  if index = 0x1000 then 8
  else if index = 0x1010 then 4
  else if index = 0x1011 then 8
  else if index = 0x1012 then 0x20
  else if index = 0x1020 then 2
  else if index = 0x7001 then 0x40
  else if index = 0x7101 then 9
  else if index = 0x8010 then 3
  else if index = 0x8020 then 5
  else 16

/-- The length of a published value: its type's, or LENGTH (R643, R653). -/
def pubLen (w : Word) : Nat := ([1, 1, 2, 4, 8, 4, 8, 4].getD (fld w 39 36 - 1) (fld w 31 16))

/-- The publication that serves an index (R653, R654). -/
def pubOf (s : State) (index : Nat) : Option Word :=
  (s.svc.pubs.map (fun p => p.2)).find? (fun w => bitOf w 63 && decide (0xA000 + fld w 59 48 ≤ index) &&
    decide (index ≤ 0xA000 + fld w 59 48 + fld w 47 40))

/-- The object dictionary (R656). -/
def objFind (s : State) (index sub : Nat) : ObjAt :=
  let u64 := fun (rd wr : Nat) => ({ code := 5, len := 8, rd := rd, wr := wr } : ObjTy)
  let top := recTop index
  if index = 0x1000 then
    objRec sub top (match sub with
      | 3 => { code := 4, len := 4, rd := 0, wr := 3 }
      | 5 => { code := 2, len := 1, rd := 0, wr := 3 }
      | 6 => { code := 9, len := 8, rd := 0, wr := 3 }
      | 8 => { code := 4, len := 4, rd := 0, wr := 3 }
      | _ => { code := 0xA, len := 1024, rd := 0, wr := 3 })
  else if index = 0x1001 then objU64 sub 3 1
  else if index = 0x1002 ∨ index = 0x1003 then objU64 sub 0 3
  else if index = 0x1010 then
    objRec sub top (match sub with
      | 3 => u64 1 2
      | 4 => u64 1 3
      | _ => { code := 2, len := 1, rd := 0, wr := 3 })
  else if index = 0x1011 then objRec sub top (u64 1 3)
  else if index = 0x1012 then objRec sub top (u64 1 1)
  else if index = 0x1020 then objRec sub top (u64 2 2)
  else if index = 0x2000 then objU64 sub 3 2
  else if index = 0x2001 then objU64 sub 1 3
  else if index = 0x2002 then (if sub = 0 then .val { code := 9, len := 0, rd := 3, wr := 2 } else .noSub)
  else if 0x2040 ≤ index ∧ index ≤ 0x2063 then objU64 sub 1 3
  else if 0x3000 ≤ index ∧ index ≤ 0x3007 then objU64 sub 1 3
  else if index = 0x3010 then objU64 sub 1 2
  else if 0x3100 ≤ index ∧ index ≤ 0x3103 then objU64 sub 1 2
  else if index = 0x3110 then objU64 sub 1 3
  else if index = 0x3400 then objU64 sub 1 2
  else if index = 0x3401 then objU64 sub 1 2
  else if 0x3420 ≤ index ∧ index ≤ 0x343F then objRec sub top (u64 1 3)
  else if index = 0x7000 then objU64 sub 1 3
  else if index = 0x7001 then objRec sub top { code := 9, len := 16, rd := 1, wr := 3 }
  else if index = 0x7002 ∨ index = 0x7100 then objU64 sub 1 2
  else if index = 0x7101 then objRec sub top (u64 1 3)
  else if index = 0x7110 then objU64 sub 2 2
  else if index = 0x8000 then objU64 sub 0 3
  else if index = 0x8001 then objU64 sub 1 2
  else if index = 0x8002 then objU64 sub 1 3
  else if index = 0x8010 then objRec sub top (if sub = 3 then u64 2 3 else u64 3 2)
  else if index = 0x8020 then objRec sub top (u64 3 2)
  else if index = 0x8030 then (if sub = 0 then .val { code := 9, len := 32, rd := 1, wr := 3 } else .noSub)
  else if 0xA000 ≤ index ∧ index ≤ 0xAFFF then
    match pubOf s index with
    | some w => .val { code := fld w 39 36, len := pubLen w, rd := fld w 35 34, wr := fld w 33 32 }
    | none => .noObj
  else .noObj

/-- Objects that send notifications (R656). -/
def objNotifies (index : Nat) : Bool :=
  index == 0x1003 || index == 0x3400 || index == 0x7000 || index == 0x8002 ||
  decide (0x2040 ≤ index ∧ index ≤ 0x2063) || decide (0x3000 ≤ index ∧ index ≤ 0x3007) ||
  decide (0x3100 ≤ index ∧ index ≤ 0x3103)

/-! ### Reads -/

/-- RCLK status (R99). -/
def rclkWord (s : State) (r : Nat) : Word :=
  let x := rclkGet s r
  let c := rclkCfg s r
  mkWord [(47, 32, x.swCnt), (23, 23, x.rst.toNat), (22, 22, x.gated.toNat), (21, 21, x.pend.isSome.toNat),
    (20, 20, (bitOf c 41).toNat), (19, 18, x.src), (17, 14, fld c 53 50),
    (13, 11, if bitOf c 54 then (dieGov s (r / 128)).thr else 0)]

/-- A session's word (R651). -/
def sessWord (s : State) (k : Nat) : Word :=
  let x := sessOf s k
  if x.sid = 0 then 0
  else mkWord [(63, 63, 1), (62, 61, x.level), (60, 59, x.path), (55, 48, x.sid), (47, 32, x.init),
    (31, 0, min (2 ^ 32 - 1) ((s.now - x.opened) / 1000000))]

/-- A fault log entry (R612); empty ones read as zero. -/
def faultBytes (s : State) (n : Nat) : List Byte :=
  match s.st.log.drop n with
  | [] => List.replicate 16 0
  | e :: _ => leBytes 8 e.us ++ leBytes 1 e.cls ++ leBytes 3 e.unit ++ leBytes 4 e.detail

def wordBytes (w : Word) : List Byte := leBytes 8 w.toNat

/-- The register bridge's address is one it may use (R652). -/
def bridgeOk (a : Nat) : Bool :=
  a % 8 == 0 && decide (0x1F000000000 ≤ a) && decide (a < 0x1F800000000) &&
  !(decide (0x1F002000000 ≤ a) && decide (a < 0x1F003000000))

/-- What an access comes to: an ABORT code, 0 for none, its detail, the value read, and the state. -/
structure ObjOut where
  code : Nat := 0
  detail : Nat := 0
  value : List Byte := []
  s : State
  deriving DecidableEq, Repr

/-- A read of an object that exists and may be read, other than a published one. -/
def objRead (s : State) (k index sub : Nat) : ObjOut :=
  let reg := fun (r : Reg) => ({ value := wordBytes (regRead s r), s := s } : ObjOut)
  let word := fun (w : Word) => ({ value := wordBytes w, s := s } : ObjOut)
  let bytes := fun (b : List Byte) => ({ value := b, s := s } : ObjOut)
  if sub = 0 ∧ [0x1000, 0x1010, 0x1011, 0x1012, 0x1020, 0x7001, 0x7101, 0x8010, 0x8020].contains index = true then
    bytes (leBytes 1 (recTop index))
  else if index = 0x1000 then
    bytes (match sub with
      | 1 => ascii "Idvas Microsystems"
      | 2 => ascii "VX9-4F"
      | 3 => leBytes 4 0x1094F4A3
      | 4 => ascii "A1"
      | 5 => leBytes 1 Config.grade
      | 6 => leBytes 8 Config.serial.toNat
      | 7 => Config.romVersion
      | _ => leBytes 4 0x100)
  else if index = 0x1002 then reg { kind := .rstCause }
  else if index = 0x1003 then reg { kind := .rstState }
  else if index = 0x1010 then
    (match sub with
      | 1 => bytes (leBytes 1 s.svc.node)
      | 2 => bytes (leBytes 1 s.svc.phys)
      | 3 => word s.svc.cfg
      | _ => word (mkWord [(63, 32, min (2 ^ 32 - 1) s.svc.received), (31, 0, min (2 ^ 32 - 1) s.svc.discarded)]))
  else if index = 0x1011 then word (sessWord s (sub - 1))
  else if index = 0x1012 then word (tget 0 s.svc.pubs (sub - 1))
  else if index = 0x1020 then
    let a := (sessOf s k).bridge
    if sub = 1 then word a
    else if bridgeOk a.toNat = false then { code := 7, s := s }
    else
      let p := addrRead s 3 a.toNat
      if p.1 = 0 then { value := wordBytes p.2.1, s := p.2.2 } else { code := 0x10, detail := p.1, s := p.2.2 }
  else if index = 0x2001 then reg { kind := .cfgStat }
  else if 0x2040 ≤ index ∧ index < 0x2060 then reg { kind := .pnlStat, u := index - 0x2040 }
  else if 0x2060 ≤ index ∧ index ≤ 0x2063 then reg { kind := .drnStat, u := index - 0x2060 }
  else if 0x3000 ≤ index ∧ index ≤ 0x3007 then reg { kind := .clkStall, u := index - 0x3000 }
  else if index = 0x3010 then reg { kind := .clkForce }
  else if 0x3100 ≤ index ∧ index ≤ 0x3103 then reg { kind := .pwrOpp, u := index - 0x3100 }
  else if index = 0x3110 then reg { kind := .pwrWake }
  else if index = 0x3400 then word s.gov.ctl
  else if index = 0x3401 then word s.gov.stat
  else if 0x3420 ≤ index ∧ index ≤ 0x343F then
    if sub = 0 then bytes (leBytes 1 16) else word (rclkWord s (16 * (index - 0x3420) + (sub - 1)))
  else if index = 0x7000 then word (mkWord [(63, 32, s.st.total), (6, 0, s.st.log.length)])
  else if index = 0x7001 then bytes (faultBytes s (sub - 1))
  else if index = 0x7002 then word s.st.mask
  else if index = 0x7100 then word s.st.ctl
  else if index = 0x7101 then word (if sub = 9 then s.st.stat else resGet s (sub - 1))
  else if index = 0x7110 then word (setFld s.st.commit 39 32 (repairFree s))
  else if index = 0x8000 then reg { kind := .secState }
  else if index = 0x8001 then reg { kind := .almCfg }
  else if index = 0x8002 then reg { kind := .almStat }
  else if index = 0x8010 then reg { kind := .fusStat }
  else if bitOf s.sec.state 51 = false then { code := 8, s := s }
  else { value := trngBytes s.fresh 32, s := bump s 4 }

/-! ### Writes -/

/-- The source code of a reset commanded through object 0x1001.00 (R520). -/
def rstCarrier (path : Nat) : Nat := if path = 0 then 9 else if path = 1 then 0xC else 0xA

/-- A publication entry may be written by this session (R653). -/
def pubMay (x : Sess) (v : Word) : Bool :=
  x.path == 2 && decide (1 ≤ x.level) && anyPort x.init && decide ((x.init - 0x2000) / 64 = fld v 15 11)

/-- A write that sets V is refused (R653). -/
def pubRefused (s : State) (entry : Nat) (v : Word) : Bool :=
  let lo := fld v 59 48
  let hi := lo + fld v 47 40
  let ty := fld v 39 36
  decide (0xFFF < hi) || ty == 0 || decide (0xA < ty) ||
  (decide (9 ≤ ty) && !(decide (1 ≤ fld v 31 16) && decide (fld v 31 16 ≤ 512))) ||
  s.svc.pubs.any (fun p => p.1 != entry && bitOf p.2 63 && decide (fld p.2 59 48 ≤ hi) &&
    decide (lo ≤ fld p.2 59 48 + fld p.2 47 40)) ||
  !bitOf (portCfg s (fld v 15 11) (fld v 10 5)) 1 || panelState s (fld v 15 11) != 1

/-- A publication entry written (R653). -/
def pubWrite (s : State) (x : Sess) (entry : Nat) (v : Word) : ObjOut :=
  if pubMay x v = false then { code := 4, detail := 1, s := s }
  else if bitOf v 63 = true ∧ pubRefused s entry v = true then { code := 8, s := s }
  else { s := { s with svc := { s.svc with pubs := tset 0 s.svc.pubs entry (v &&& (fldMask 63 63 ||| fldMask 59 5)) } } }

/-- A register bridge's write of DATA (R652). -/
def bridgeWrite (s : State) (a : Nat) (v : Word) : ObjOut :=
  if bridgeOk a = false then { code := 7, s := s }
  else
    let p := addrWrite s 3 a v
    if p.code ≠ 0 then { code := 0x10, detail := p.code, s := p.s }
    else if p.refused then { code := 8, s := p.s }
    else { s := p.s }

/-- A force refused (R487, R510). -/
def forceRefused (s : State) (v : Word) : Bool := bitOf v 63 && !(!bitOf s.clk.force 61 && bitOf (forceWrite s v).clk.force 61)

/-- SEC_BBR refuses a command (R571). -/
def bbrRefused (s : State) (v : Word) : Bool :=
  bitOf v 63 && bitOf (bbrWrite { s with sec := { s.sec with bbr := setBit s.sec.bbr 59 false } } 3 v).sec.bbr 59

/-- Why a repair commit is refused, as FUS_STAT.WHY codes it (R572, R628). -/
def commitWhy (s : State) : Nat :=
  if s.sec.vfuse = false then 1 else if secLock s then 5 else if bitOf s.sec.fusstat 63 then 7 else 0

def selfCtlMask : Word := fldMask 47 32 ||| fldMask 4 0
def portCfgMask : Word := fldMask 23 16 ||| fldMask 8 8 ||| fldMask 5 4 ||| fldMask 1 0

/-- A write of an object that exists, by a session that may, of the length of its type; not a published one (R642). -/
def objWrite (s : State) (k index sub : Nat) (data : List Byte) : ObjOut :=
  let x := sessOf s k
  let v : Word := BitVec.ofNat 64 (leNat data)
  let done := fun (t : State) => ({ s := t } : ObjOut)
  let rule := fun (ok : Bool) (detail : Nat) (t : State) =>
    (if ok then { s := t } else { code := 8, detail := detail, s := t } : ObjOut)
  if index = 0x1001 then let p := rstCmd s (rstCarrier x.path) v; rule p.1 0 p.2
  else if index = 0x1010 then done { s with svc := { s.svc with cfg := v &&& portCfgMask } }
  else if index = 0x1012 then pubWrite s x (sub - 1) v
  else if index = 0x1020 then
    if sub = 1 then done (sessPut s k { x with bridge := v }) else bridgeWrite s x.bridge.toNat v
  else if index = 0x2000 then let p := cfgCtlWrite s v; rule p.1 0 p.2
  else if index = 0x2002 then
    if ldState s = 1 ∧ s.ld.src = 3 then done (ldData s 3 data) else { code := 8, s := s }
  else if index = 0x3010 then rule (!forceRefused s v) 1 (forceWrite s v)
  else if 0x3100 ≤ index ∧ index ≤ 0x3103 then done (oppWrite s (index - 0x3100) v)
  else if index = 0x3400 then done (govWrite s v)
  else if index = 0x3401 then done (govStatWrite s v)
  else if index = 0x7002 then done { s with st := { s.st with mask := v &&& fldMask 20 1 } }
  else if index = 0x7100 then done { s with st := { s.st with ctl := v &&& selfCtlMask } }
  else if index = 0x7110 then
    if bitOf v 63 then let p := repairGo s; rule p.1 (commitWhy s) p.2 else done s
  else if index = 0x8001 then done (almSet s v)
  else if index = 0x8010 then
    if sub = 1 then done { s with sec := { s.sec with fusdata := v } }
    else
      let why := if bitOf v 63 then fuseWhy s (fld v 7 0) false else 0
      rule (why == 0) why (fusCtlWrite s v)
  else if index = 0x8020 then
    if sub = 5 then rule (!bbrRefused s v) 1 (bbrWrite s 3 v)
    else done { s with sec := { s.sec with keyin := s.sec.keyin.set (sub - 1) v } }
  else done s

/-! ### The checks of R642 -/

/-- The level a write needs: object 0x1001.00's depends on ACTION (R549). -/
def objWrLevel (index : Nat) (data : List Byte) (t : ObjTy) : Nat :=
  if index = 0x1001 then
    let act := fld (BitVec.ofNat 64 (leNat data)) 62 60
    if data.length = 8 ∧ act ≠ 1 ∧ act ≠ 2 then 2 else 1
  else t.wr

/-- A value's length fits its type (R643). -/
def objFits (t : ObjTy) (index n : Nat) : Bool :=
  if index = 0x2002 then true else if t.code = 0xA then decide (n ≤ t.len) else n == t.len

/-- The checks before the object's own: code and detail, 0 for none (R642). For a write `n` is the value's length. -/
def objCheck (s : State) (x : Sess) (write : Bool) (index sub n : Nat) (data : List Byte) : Nat × Nat :=
  match objFind s index sub with
  | .noObj => (2, 0)
  | .noSub => (3, 0)
  | .val t =>
    if write = false then (if x.level < t.rd then (4, t.rd) else (0, 0))
    else if t.wr = 3 then (if x.level < t.rd then (4, t.rd) else (5, 0))
    else if x.level < objWrLevel index data t then (4, objWrLevel index data t)
    else if index = 0x1012 ∧ n = 8 ∧ data.length = 8 ∧ pubMay x (BitVec.ofNat 64 (leNat data)) = false then (4, 1)
    else if objFits t index n = false then (6, 0)
    else if t.code = 1 ∧ data.length = 1 ∧ 1 < leNat data then (7, 0)
    else (0, 0)

/-! ### Publishers (R655) -/

/-- The address a published value is served at. -/
def pubAddr (w : Word) (index sub : Nat) : Nat :=
  0x12000000000 + (64 * fld w 15 11 + fld w 10 5) * 0x2000000 + ((index - 0xA000 - fld w 59 48) * 256 + sub) * 512

/-- The request to a publisher: an RD of the units the value takes, or a WR of exactly its bytes. -/
def pubGo (s : State) (w : Word) (q : ObjReq) : State :=
  let a := pubAddr w q.index q.sub
  let r := wordReq s 3 a none []
  let n := max 1 (((if q.write then q.data.length else pubLen w) + 31) / 32)
  let first := 2 ^ min q.data.length 32 - 1
  let last := 2 ^ (q.data.length - 32 * (n - 1)) - 1
  let t := { s with svc := { s.svc with wait := some { req := q, tag := r.h.tag.toNat, len := pubLen w } } }
  if q.write then
    nocRequest t { r with
      cmd := .wr
      h := { r.h with len := n, imm := BitVec.ofNat 64 (first + (if n = 1 then 0 else last * 2 ^ 32)) }
      data := (wordsOf (q.data ++ List.replicate (32 * n - q.data.length) 0)).map (fun d => { val := d, pois := false }) } false
  else nocRequest t { r with h := { r.h with len := n } } false

/-! ### The bridge (R641, R642) -/

/-- An access that acts once its OK has been sent (R641, R650). -/
def objDeferred (q : ObjReq) : Bool := q.write && (q.index == 0x1001 || (q.index == 0x1010 && q.sub == 3))

/-- One access executes and is answered. -/
def objRun (s : State) (q : ObjReq) : State :=
  let x := sessOf s q.slot
  let c := objCheck s x q.write q.index q.sub q.data.length q.data
  let no := fun (t : State) (code detail : Nat) => sendAbort t q.slot q.tid q.index q.sub code detail
  if c.1 ≠ 0 then no s c.1 c.2
  else if 0xA000 ≤ q.index then
    match pubOf s q.index with
    | some w => pubGo s w q
    | none => no s 2 0
  else if q.write = false then
    let p := objRead s q.slot q.index q.sub
    if p.code ≠ 0 then no p.s p.code p.detail else sendOk p.s q.slot q.tid q.index q.sub p.value
  else
    let p := objWrite s q.slot q.index q.sub q.data
    if p.code ≠ 0 then no p.s p.code p.detail
    else if objDeferred q then (objWrite (sendOk s q.slot q.tid q.index q.sub []) q.slot q.index q.sub q.data).s
    else sendOk p.s q.slot q.tid q.index q.sub []

/-- The oldest access received complete executes; none while one waits for its publisher or the management controller
reloads. -/
def objStep (s : State) : State :=
  match s.svc.queue with
  | [] => s
  | q :: rest =>
    if s.svc.wait.isSome = true ∨ s.rst.hubLoading = true then s
    else objRun { s with svc := { s.svc with queue := rest } } q

/-! ### Messages from the host -/

def carPath : Carrier → Nat
  | .port _ => 0
  | .jtag => 1
  | .window _ => 2
/-- Where answers on a carrier go: a window's initiator; on 10BASE-T1S the source address of the frame (R631, R633). -/
def carTo (s : State) : Carrier → Nat
  | .port a => if s.svc.phys = 0 then 0 else a.toNat
  | .jtag => 0
  | .window i => i.toNat

/-- The carrier works now (R530, R629, R632). -/
def carrierUp (s : State) (c : Carrier) : Bool :=
  !s.rst.hubLoading && ((carPath c) != 1 || (nativeTap s && s.dbg.ir == 0x018))

/-- A message arrives whole: within the carrier's limit; through a window it is the oldest one its initiator has written
there (R633, R634). -/
def hostTake (s : State) (c : Carrier) (bytes : List Byte) : Option State :=
  if carrierUp s c = false ∨ msgLimit s (carPath c) < bytes.length then none
  else
    let t := { s with svc := { s.svc with received := s.svc.received + 1 } }
    if (carPath c) ≠ 2 then some t
    else match takeFirst (fun (m : Nat × List Byte) => m.1 == carTo s c) t.svc.host with
      | none => none
      | some (m, rest) =>
        if m.2.take bytes.length = bytes ∧ (m.2.drop bytes.length).all (fun b => b == 0) = true then
          some { t with svc := { t.svc with host := rest } }
        else none

/-- The slot of an open session of a carrier (R633, R636). -/
def sessFind (s : State) (c : Carrier) (sid : Byte) : Option Nat :=
  (s.svc.slots.find? (fun p => p.2.sid == sid.toNat && sid != 0 && p.2.path == carPath c &&
    (carPath c != 2 || p.2.init == carTo s c))).map (fun p => p.1)

/-- A failed authentication or tag counts toward alarm SESSAUTH: 16 within 60 s (R562, R639, R640). -/
def authFail (s : State) : State :=
  let ts := s.sec.authFails.filter (fun t => decide (s.now < t + 60000000)) ++ [s.now]
  let t := { s with sec := { s.sec with authFails := ts } }
  if ts.length = 16 then alarms t [12] else t

/-- A stream a session was sending ends early and its load fails with SOURCE (R646). -/
def streamLost (s : State) (x : Sess) : State :=
  if x.streams = true ∧ ldState s = 1 ∧ s.ld.src = 3 then ldFail s 6 else s

/-- A session closes (R637). -/
def sessClose (s : State) (k : Nat) : State := sessBye (streamLost s (sessOf s k)) k

/-- A message in a ready session: NOSESSION where there is none; one whose tag fails closes the session (R640, R642). -/
def sessMsg (s : State) (c : Carrier) (sid tid : Byte) (index sub : Nat) (msg tag : List Byte) (act : State → Nat → State) : State :=
  match hostTake s c (msg ++ tag) with
  | none => s
  | some t =>
    match sessFind t c sid with
    | none => abortRaw t (carPath c) (carTo t c) sid.toNat tid.toNat index sub 1 0
    | some k =>
      let x := sessOf t k
      if x.ready = false then abortRaw t (carPath c) (carTo t c) sid.toNat tid.toNat index sub 1 0
      else if x.tagged = true ∧ tag ≠ sessTag x 0 x.cntIn msg then
        sessClose (authFail { t with svc := { t.svc with discarded := t.svc.discarded + 1 } }) k
      else act (sessPut t k { x with last := t.now, cntIn := if x.tagged then x.cntIn + 1 else x.cntIn }) k

/-- The full message of an operand. -/
def msgBytes (m : Msg) (kind : Nat) : List Byte :=
  msgFull kind (if m.segd then 2 else 0) m.sid.toNat m.tid.toNat m.sub.toNat m.index.toNat m.payload

/-- Accesses a session has outstanding (R641). -/
def sessOut (s : State) (k : Nat) : Nat :=
  (s.svc.queue.filter (fun r => r.slot == k)).length + (sessOf s k).segs.length +
  (if s.svc.wait.any (fun w => w.req.slot == k) then 1 else 0)

/-- A request: BUSY where four are outstanding, after the checks that come before it (R641, R642). -/
def objRequest (s : State) (k : Nat) (m : Msg) (write : Bool) : State :=
  let x := sessOf s k
  let no := fun (code detail : Nat) => sendAbort s k m.tid.toNat m.index.toNat m.sub.toNat code detail
  let n := if write = true ∧ m.segd = true then leNat m.payload else m.payload.length
  let c := objCheck s x write m.index.toNat m.sub.toNat n (if m.segd then [] else m.payload)
  if 4 ≤ sessOut s k then (if c.1 ≠ 0 then no c.1 c.2 else no 9 0)
  else if write = true ∧ m.segd = true then
    if c.1 ≠ 0 then no c.1 c.2
    else if m.payload.length ≠ 4 then no 6 0
    else if n = 0 then no 7 0
    else if m.index = 0x2002 ∧ ¬ (ldState s = 1 ∧ s.ld.src = 3) then no 8 0
    else if segBusy s m.index.toNat m.sub.toNat then no 9 0
    else
      let g : Seg := { tid := m.tid.toNat, index := m.index.toNat, sub := m.sub.toNat, write := true, total := n }
      sendOk (sessPut s k { x with segs := x.segs ++ [g] }) k m.tid.toNat m.index.toNat m.sub.toNat []
  else if write = false ∧ m.payload ≠ [] then no 6 0
  else
    let q : ObjReq := { slot := k, tid := m.tid.toNat, write := write, index := m.index.toNat, sub := m.sub.toNat, data := m.payload }
    { s with svc := { s.svc with queue := s.svc.queue ++ [q] } }

/-- A level's session key, where present (R553). -/
def sessKey (s : State) (level : Nat) : List Byte :=
  (List.range 4).flatMap (fun i => leBytes 8 (fuseWord s ((if level = 1 then 13 else 17) + i)).toNat)

/-- OPEN (R636, R638): the session number is a free one among those not in use (log entry 5). -/
def sessOpen (s : State) (c : Carrier) (tid level : Nat) (cn : List Byte) : State :=
  let no := fun (code : Nat) => abortRaw s (carPath c) (carTo s c) 0 tid 0 0 code 0
  if cn.length ≠ 16 then no 6
  else if 2 < level then no 7
  else if 1 ≤ level ∧ bitOf s.sec.state 51 = false then no 8
  else if 1 ≤ level ∧ secLock s = true then no 0xB
  else if 1 ≤ level ∧ bitOf s.sec.state (if level = 1 then 55 else 54) = false then no 0xC
  else match (List.range 8).find? (fun k => (sessOf s k).sid == 0) with
    | none => no 0xD
    | some k =>
      let used := s.svc.slots.map (fun p => p.2.sid)
      let avail := (List.range 255).map (· + 1) |>.filter (fun i => !used.contains i)
      let sid := avail.getD ((Config.freeWord s.fresh).toNat % avail.length) 1
      let dc := if 1 ≤ level then trngBytes (s.fresh + 1) 32 else []
      let x : Sess := { level := level, path := (carPath c), init := carTo s c, sid := sid, ready := level == 0, cn := cn, dc := dc
                        opened := s.now, last := s.now }
      sendRaw (sessPut (bump s 5) k x) (carPath c) (carTo s c) (msgFull 8 0 sid tid 0 0 (cn ++ dc))

/-- AUTH (R639). -/
def sessAuth (s : State) (k : Nat) (tid : Nat) (mac : List Byte) : State :=
  let x := sessOf s k
  let kl := sessKey s x.level
  let ids := [BitVec.ofNat 8 x.level, BitVec.ofNat 8 x.sid] ++ x.cn ++ x.dc
  if mac.length ≠ 48 then sendAbort s k tid 0 0 6 0
  else if mac = hmac kl (ascii "IDVAS-AUTH" ++ ids) then
    let t := sendRaw s x.path x.init (msgFull 8 0 x.sid tid 0 0 ((hmac kl (ascii "IDVAS-AUTHD" ++ ids)).take 16))
    sessPut t k { x with ready := true, last := s.now, ks := (hmac kl (ascii "IDVAS-SESS" ++ x.cn ++ x.dc)).take 32 }
  else authFail (sessFree (sendAbort s k tid 0 0 0xA 0) k)

/-! ### Segments (R645, R646) -/

def segAckMsg (s : State) (k : Nat) (g : Seg) (retry : Bool) : State :=
  sessSend s k (msgShort 5 retry.toNat (sessOf s k).sid g.tid (g.seq % 256) [])

/-- The bytes of a stream's transfer that an acknowledgement covers pass to the loader; false where it takes none. -/
def segFeed (s : State) (k : Nat) (g : Seg) : Bool × State :=
  if g.index ≠ 0x2002 then (true, s)
  else if ldState s = 1 ∧ s.ld.src = 3 then
    (true, segPut (ldData s 3 (g.data.drop g.acked)) k { g with acked := g.data.length })
  else (false, s)

/-- A segment of a write (R645). -/
def segTake (s : State) (k tid seq : Nat) (data : List Byte) (last : Bool) : State :=
  match (sessOf s k).segs.find? (fun g => g.tid == tid && g.write) with
  | none => sendAbort s k tid 0 0 0xE 0
  | some g =>
    if seq ≠ g.seq % 256 then segAckMsg s k g true
    else
      let g1 := { g with data := g.data ++ data, seq := g.seq + 1 }
      let s1 := segPut s k g1
      if last = false ∧ g1.seq % 8 ≠ 0 then s1
      else
        let f := segFeed (segAckMsg s1 k g1 false) k g1
        if f.1 = false then sendAbort (segEnd f.2 k tid true) k tid g.index g.sub 8 0
        else if last = false then f.2
        else
          let t := segEnd f.2 k tid true
          if g1.data.length ≠ g1.total then sendAbort t k tid g.index g.sub 6 0
          else if g.index = 0x2002 then sendOk t k tid g.index g.sub []
          else
            let q : ObjReq := { slot := k, tid := tid, write := true, index := g.index, sub := g.sub, data := g1.data }
            { t with svc := { t.svc with queue := t.svc.queue ++ [q] } }

/-- The host acknowledges segments of a read (R645). -/
def segAcked (s : State) (k tid seq : Nat) (retry : Bool) : State :=
  match (sessOf s k).segs.find? (fun g => g.tid == tid && !g.write) with
  | none => { s with svc := { s.svc with discarded := s.svc.discarded + 1 } }
  | some g =>
    match (List.range (g.seq + 1 - g.acked)).find? (fun d => (g.acked + d) % 256 == seq) with
    | none => s
    | some d =>
      let room := max 1 (segRoom s (sessOf s k))
      let a := g.acked + d
      if (g.total + room - 1) / room ≤ a then segEnd s k tid false
      else segMore 17 s k { g with acked := a, seq := if retry then a else g.seq }

/-! ### Commands -/

/-- OPEN (R636, R638). -/
def execUluatOpen (c : Carrier) (tid level : Byte) (cn : List Byte) (s : State) : Out :=
  .next (match hostTake s c (msgFull 0 0 0 tid.toNat 0 0 (level :: cn)) with
    | none => s
    | some t => sessOpen t c tid.toNat level.toNat cn)
/-- AUTH (R639). -/
def execUluatAuth (c : Carrier) (m : Msg) (s : State) : Out :=
  .next (match hostTake s c (msgBytes m 1) with
    | none => s
    | some t =>
      match sessFind t c m.sid with
      | none => abortRaw t (carPath c) (carTo t c) m.sid.toNat m.tid.toNat 0 0 1 0
      | some k =>
        if (sessOf t k).ready then abortRaw t (carPath c) (carTo t c) m.sid.toNat m.tid.toNat 0 0 1 0
        else sessAuth t k m.tid.toNat m.payload)
/-- AUTH_TIMEOUT (R638). -/
def execAuthTimeout (slot : Fin 8) (s : State) : Out :=
  let x := sessOf s slot
  .next (if x.sid ≠ 0 ∧ x.ready = false then sessFree s slot else s)
/-- READ (R635, R641). -/
def execUluatRead (c : Carrier) (m : Msg) (s : State) : Out :=
  .next (sessMsg s c m.sid m.tid m.index.toNat m.sub.toNat (msgBytes m 2) m.tag (fun t k => objRequest t k m false))
/-- WRITE (R635, R641, R645). -/
def execUluatWrite (c : Carrier) (m : Msg) (s : State) : Out :=
  .next (sessMsg s c m.sid m.tid m.index.toNat m.sub.toNat (msgBytes m 3) m.tag (fun t k => objRequest t k m true))
/-- OBJECT_EXECUTE (R641 to R643, R655). -/
def execObjectExecute (s : State) : Out := .next (objStep s)
/-- SEG (R645, R646). -/
def execUluatSeg (c : Carrier) (sid tid seq : Byte) (data : List Byte) (last : Bool) (tag : List Byte) (s : State) : Out :=
  .next (sessMsg s c sid tid 0 0 (msgShort 4 last.toNat sid.toNat tid.toNat seq.toNat data) tag
    (fun t k => segTake t k tid.toNat seq.toNat data last))
/-- SEGACK (R645). -/
def execUluatSegack (c : Carrier) (sid tid seq : Byte) (retry : Bool) (tag : List Byte) (s : State) : Out :=
  .next (sessMsg s c sid tid 0 0 (msgShort 5 retry.toNat sid.toNat tid.toNat seq.toNat []) tag
    (fun t k => segAcked t k tid.toNat seq.toNat retry))
/-- SEGMENT_TIMEOUT (R645, R646): the oldest transfer of the session ends. -/
def execSegmentTimeout (slot : Fin 8) (s : State) : Out :=
  match (sessOf s slot).segs with
  | [] => .next s
  | g :: _ =>
    let t := if g.write = true ∧ g.index = 0x2002 then streamLost s (sessOf s slot) else s
    .next (sendAbort (segEnd t slot g.tid g.write) slot g.tid g.index g.sub 0xF 0)
/-- What a SUBSCRIBE comes to (R642, R644): an ABORT code and detail. -/
def subCheck (s : State) (x : Sess) (m : Msg) : Nat × Nat :=
  let c := objCheck s x false m.index.toNat m.sub.toNat 0 []
  let key := (m.index.toNat, m.sub.toNat)
  if c.1 ≠ 0 then c
  else if m.payload.length ≠ 1 then (6, 0)
  else if 1 < leNat m.payload then (7, 0)
  else if leNat m.payload = 1 ∧ x.subs.contains key = false ∧ 16 ≤ x.subs.length then (8, 0)
  else if objNotifies m.index.toNat = false then (0x11, 0)
  else (0, 0)
/-- SUBSCRIBE (R644, R647). -/
def subGo (s : State) (k : Nat) (m : Msg) : State :=
  let x := sessOf s k
  let c := subCheck s x m
  let key := (m.index.toNat, m.sub.toNat)
  if c.1 ≠ 0 then sendAbort s k m.tid.toNat key.1 key.2 c.1 c.2
  else
    let subs := x.subs.filter (· != key) ++ (if leNat m.payload = 1 then [key] else [])
    let notes := if leNat m.payload = 1 then x.notes else x.notes.filter (· != key)
    sendOk (sessPut s k { x with subs := subs, notes := notes }) k m.tid.toNat key.1 key.2 []
def execUluatSubscribe (c : Carrier) (m : Msg) (s : State) : Out :=
  .next (sessMsg s c m.sid m.tid m.index.toNat m.sub.toNat (msgBytes m 6) m.tag (fun t k => subGo t k m))
/-- CLOSE (R637). -/
def execUluatClose (c : Carrier) (m : Msg) (s : State) : Out :=
  .next (sessMsg s c m.sid m.tid m.index.toNat m.sub.toNat (msgBytes m 7) m.tag sessClose)
/-- SESSION_IDLE (R637). -/
def execSessionIdle (slot : Fin 8) (s : State) : Out :=
  .next (if (sessOf s slot).sid ≠ 0 ∧ (sessOf s slot).ready = true then sessClose s slot else s)
/-- CAN_BUS_OFF (R630, R650): counted, with the message it lost. -/
def execCanBusOff (s : State) : Out :=
  .next (if s.svc.phys = 0 then
    { s with svc := { s.svc with busOffs := s.svc.busOffs + 1, discarded := s.svc.discarded + 1 } } else s)
/-- The access next to execute is one of a session to a sub-index of an object. -/
def objNext (s : State) (slot : Nat) (write : Bool) (index sub : Nat) (data : List Byte) : Bool :=
  match s.svc.queue with
  | q :: _ => q.slot == slot && q.write == write && q.index == index && q.sub == sub && (!write || q.data == data)
  | [] => false
/-- REG_BRIDGE_READ (R652): the session's read of DATA, next in order, executes. -/
def execRegBridgeRead (slot : Fin 8) (s : State) : Out :=
  .next (if objNext s slot false 0x1020 2 [] then objStep s else s)
/-- REG_BRIDGE_WRITE (R652): the session's write of DATA, next in order, executes. -/
def execRegBridgeWrite (slot : Fin 8) (v : Word) (s : State) : Out :=
  .next (if objNext s slot true 0x1020 2 (wordBytes v) then objStep s else s)
/-- PUBLICATION_WRITE (R653): the session's write of an entry, next in order, executes. -/
def execPublicationWrite (slot : Fin 8) (entry : Fin 32) (v : Word) (s : State) : Out :=
  .next (if objNext s slot true 0x1012 (entry.val + 1) (wordBytes v) then objStep s else s)

/-! ### Between commands (log entry 4) -/

/-- A session's oldest notification goes out, with the value it has now (R647, R648). -/
def noteSend (s : State) (k : Nat) : State :=
  let x := sessOf s k
  match x.notes with
  | [] => s
  | n :: rest =>
    let p := objRead s k n.1 n.2
    sessSend (sessPut s k { x with notes := rest, lost := false }) k
      (msgFull 0xA x.lost.toNat x.sid 0 n.2 n.1 p.value)

/-- A microsecond of the clocks: the phase counts and the divided edges run on (R90, R93, R98). -/
def clocksTick (s : State) : State :=
  { s with rclks := tmap {} (rclkTick s) s.rclks, clk := { s.clk with plls := tmap {} (fun _ p => pllTick p) s.clk.plls } }

/-- A microsecond passes with no command waiting: the clocks run, and each session sends its oldest notification. -/
def idle (s : State) : State :=
  let t := clocksTick (if s.rst.hubLoading then s else (List.range 8).foldl noteSend s)
  { t with now := t.now + 1 }

end Sys2Proof.Machine
end

