-- ==== Sys2Proof/Machine/Dispatch.lean ====
section
/-! DEFINITION. The meaning of every command, one arm each. -/

namespace Sys2Proof.Machine
open Sys2Proof

def exec (i : Instr) (s : State) : Host.Outcome State Fault Refusal :=
  match i with
  | .registerWrite init addr v => Sys2Proof.Machine.execRegisterWrite init addr v s
  | .unitDisable u => Sys2Proof.Machine.execUnitDisable u s
  | .drainExpire u => Sys2Proof.Machine.execDrainExpire u s
  | .drainComplete u => Sys2Proof.Machine.execDrainComplete u s
  | .unitEnable u => Sys2Proof.Machine.execUnitEnable u s
  | .wrapperOpen u => Sys2Proof.Machine.execWrapperOpen u s
  | .cellNop c ix => Sys2Proof.Machine.execCellNop c ix s
  | .cellMov c ix => Sys2Proof.Machine.execCellMov c ix s
  | .cellMovb c ix => Sys2Proof.Machine.execCellMovb c ix s
  | .cellAdd c ix => Sys2Proof.Machine.execCellAdd c ix s
  | .cellSub c ix => Sys2Proof.Machine.execCellSub c ix s
  | .cellCmp c ix => Sys2Proof.Machine.execCellCmp c ix s
  | .cellMin c ix => Sys2Proof.Machine.execCellMin c ix s
  | .cellMax c ix => Sys2Proof.Machine.execCellMax c ix s
  | .cellAbsd c ix => Sys2Proof.Machine.execCellAbsd c ix s
  | .cellAnd c ix => Sys2Proof.Machine.execCellAnd c ix s
  | .cellOr c ix => Sys2Proof.Machine.execCellOr c ix s
  | .cellXor c ix => Sys2Proof.Machine.execCellXor c ix s
  | .cellAndn c ix => Sys2Proof.Machine.execCellAndn c ix s
  | .cellShl c ix => Sys2Proof.Machine.execCellShl c ix s
  | .cellShr c ix => Sys2Proof.Machine.execCellShr c ix s
  | .cellRol c ix => Sys2Proof.Machine.execCellRol c ix s
  | .cellRor c ix => Sys2Proof.Machine.execCellRor c ix s
  | .cellExt c ix => Sys2Proof.Machine.execCellExt c ix s
  | .cellIns c ix => Sys2Proof.Machine.execCellIns c ix s
  | .cellPopc c ix => Sys2Proof.Machine.execCellPopc c ix s
  | .cellClz c ix => Sys2Proof.Machine.execCellClz c ix s
  | .cellMullo c ix => Sys2Proof.Machine.execCellMullo c ix s
  | .cellMulhi c ix => Sys2Proof.Machine.execCellMulhi c ix s
  | .cellMulw0 c ix => Sys2Proof.Machine.execCellMulw0 c ix s
  | .cellMulw1 c ix => Sys2Proof.Machine.execCellMulw1 c ix s
  | .cellDot4 c ix => Sys2Proof.Machine.execCellDot4 c ix s
  | .cellDotacc c ix => Sys2Proof.Machine.execCellDotacc c ix s
  | .governorLimiterTick d => Sys2Proof.Machine.execGovernorLimiterTick d s
  | .governorInterval device outside => Sys2Proof.Machine.execGovernorInterval device outside s
  | .governorOver dies => Sys2Proof.Machine.execGovernorOver dies s
  | .governorControlWrite v => Sys2Proof.Machine.execGovernorControlWrite v s
  | .clockSwitchStart r rsel => Sys2Proof.Machine.execClockSwitchStart r rsel s
  | .clockSwitchDone r => Sys2Proof.Machine.execClockSwitchDone r s
  | .clockGate r => Sys2Proof.Machine.execClockGate r s
  | .clockUngate r => Sys2Proof.Machine.execClockUngate r s
  | .regionalResetAssert r src => Sys2Proof.Machine.execRegionalResetAssert r src s
  | .regionalResetRelease r => Sys2Proof.Machine.execRegionalResetRelease r s
  | .engNop e => Sys2Proof.Machine.execEngNop e s
  | .engCmul e => Sys2Proof.Machine.execEngCmul e s
  | .engCadd e => Sys2Proof.Machine.execEngCadd e s
  | .engCsub e => Sys2Proof.Machine.execEngCsub e s
  | .engMac e => Sys2Proof.Machine.execEngMac e s
  | .engFtap e => Sys2Proof.Machine.execEngFtap e s
  | .engBfly e => Sys2Proof.Machine.execEngBfly e s
  | .engFft8 e => Sys2Proof.Machine.execEngFft8 e s
  | .engAclr e => Sys2Proof.Machine.execEngAclr e s
  | .engArd e => Sys2Proof.Machine.execEngArd e s
  | .engArdc e => Sys2Proof.Machine.execEngArdc e s
  | .engCvtf e => Sys2Proof.Machine.execEngCvtf e s
  | .engCvti e => Sys2Proof.Machine.execEngCvti e s
  | .engAxfr e => Sys2Proof.Machine.execEngAxfr e s
  | .engVmov e => Sys2Proof.Machine.execEngVmov e s
  | .engVand e => Sys2Proof.Machine.execEngVand e s
  | .engVor e => Sys2Proof.Machine.execEngVor e s
  | .engVxor e => Sys2Proof.Machine.execEngVxor e s
  | .engVrot e => Sys2Proof.Machine.execEngVrot e s
  | .engSmov e => Sys2Proof.Machine.execEngSmov e s
  | .engSadd e => Sys2Proof.Machine.execEngSadd e s
  | .engSaddi e => Sys2Proof.Machine.execEngSaddi e s
  | .engSldi e => Sys2Proof.Machine.execEngSldi e s
  | .engAgadd e => Sys2Proof.Machine.execEngAgadd e s
  | .engVext e => Sys2Proof.Machine.execEngVext e s
  | .engVins e => Sys2Proof.Machine.execEngVins e s
  | .engBr e => Sys2Proof.Machine.execEngBr e s
  | .engBrz e => Sys2Proof.Machine.execEngBrz e s
  | .engBrnz e => Sys2Proof.Machine.execEngBrnz e s
  | .engRep e => Sys2Proof.Machine.execEngRep e s
  | .engLoop e => Sys2Proof.Machine.execEngLoop e s
  | .engWaite e => Sys2Proof.Machine.execEngWaite e s
  | .engReti e => Sys2Proof.Machine.execEngReti e s
  | .engHalt e => Sys2Proof.Machine.execEngHalt e s
  | .engXfer e => Sys2Proof.Machine.execEngXfer e s
  | .loadQuad e k flips => Sys2Proof.Machine.execLoadQuad e k flips s
  | .loadWord e k flips => Sys2Proof.Machine.execLoadWord e k flips s
  | .loadF e k flips => Sys2Proof.Machine.execLoadF e k flips s
  | .storeQuad e k => Sys2Proof.Machine.execStoreQuad e k s
  | .storeWord e k => Sys2Proof.Machine.execStoreWord e k s
  | .storeQuadObserved e k => Sys2Proof.Machine.execStoreQuadObserved e k s
  | .engPortWaitExpire e => Sys2Proof.Machine.execEngPortWaitExpire e s
  | .haltComplete e => Sys2Proof.Machine.execHaltComplete e s
  | .interruptEntry e => Sys2Proof.Machine.execInterruptEntry e s
  | .exceptionEntry e flip => Sys2Proof.Machine.execExceptionEntry e flip s
  | .xferComplete e => Sys2Proof.Machine.execXferComplete e s
  | .runAheadFetch e g flips => Sys2Proof.Machine.execRunAheadFetch e g flips s
  | .verdictGood e v => Sys2Proof.Machine.execVerdictGood e v s
  | .verdictBad e v => Sys2Proof.Machine.execVerdictBad e v s
  | .verdictRetire e => Sys2Proof.Machine.execVerdictRetire e s
  | .watchdogExpire e => Sys2Proof.Machine.execWatchdogExpire e s
  | .engWdtWrite e v => Sys2Proof.Machine.execEngWdtWrite e v s
  | .engHaltRequest e => Sys2Proof.Machine.execEngHaltRequest e s
  | .engResume e => Sys2Proof.Machine.execEngResume e s
  | .engHoldReset e hold => Sys2Proof.Machine.execEngHoldReset e hold s
  | .engIntHost e => Sys2Proof.Machine.execEngIntHost e s
  | .bankRead b ix same addr flip => Sys2Proof.Machine.execBankRead b ix same addr flip s
  | .bankWrite b ix same addr w be flip => Sys2Proof.Machine.execBankWrite b ix same addr w be flip s
  | .bankFadd b ix same addr w flip => Sys2Proof.Machine.execBankFadd b ix same addr w flip s
  | .bankSwap b ix same addr w flip => Sys2Proof.Machine.execBankSwap b ix same addr w flip s
  | .bankReserveRead b ix same addr flip => Sys2Proof.Machine.execBankReserveRead b ix same addr flip s
  | .bankConditionalWrite b ix same addr w flip => Sys2Proof.Machine.execBankConditionalWrite b ix same addr w flip s
  | .bankPortWaitExpire b => Sys2Proof.Machine.execBankPortWaitExpire b s
  | .correctionWriteBack b => Sys2Proof.Machine.execCorrectionWriteBack b s
  | .writeBackForce b => Sys2Proof.Machine.execWriteBackForce b s
  | .reservationLapse b word => Sys2Proof.Machine.execReservationLapse b word s
  | .bankHandover init b v => Sys2Proof.Machine.execBankHandover init b v s
  | .handoverComplete b => Sys2Proof.Machine.execHandoverComplete b s
  | .bankModeWrite init b v => Sys2Proof.Machine.execBankModeWrite init b v s
  | .remapSet b k word flip => Sys2Proof.Machine.execRemapSet b k word flip s
  | .remapClear b k flip => Sys2Proof.Machine.execRemapClear b k flip s
  | .bankErrClear b => Sys2Proof.Machine.execBankErrClear b s
  | .scrubRead b flip us => Sys2Proof.Machine.execScrubRead b flip us s
  | .scrubStarve b => Sys2Proof.Machine.execScrubStarve b s
  | .bistStart b mode => Sys2Proof.Machine.execBistStart b mode s
  | .bistStop b => Sys2Proof.Machine.execBistStop b s
  | .bistStep b mismatch flip => Sys2Proof.Machine.execBistStep b mismatch flip s
  | .bankPowerRequest b req => Sys2Proof.Machine.execBankPowerRequest b req s
  | .bankPowerDone b => Sys2Proof.Machine.execBankPowerDone b s
  | .bankLingerExpire b => Sys2Proof.Machine.execBankLingerExpire b s
  | .nocRd h v => Sys2Proof.Machine.execNocRd h v s
  | .nocRde h v => Sys2Proof.Machine.execNocRde h v s
  | .nocWr h data v => Sys2Proof.Machine.execNocWr h data v s
  | .nocWri1 h v => Sys2Proof.Machine.execNocWri1 h v s
  | .nocWri2 h v => Sys2Proof.Machine.execNocWri2 h v s
  | .nocWri4 h v => Sys2Proof.Machine.execNocWri4 h v s
  | .nocWri8 h v => Sys2Proof.Machine.execNocWri8 h v s
  | .nocFadd h v => Sys2Proof.Machine.execNocFadd h v s
  | .nocSwap h v => Sys2Proof.Machine.execNocSwap h v s
  | .nocRsvrd h v => Sys2Proof.Machine.execNocRsvrd h v s
  | .nocCwr h v => Sys2Proof.Machine.execNocCwr h v s
  | .nocRdr init tag user e => Sys2Proof.Machine.execNocRdr init tag user e s
  | .nocWra init tag e => Sys2Proof.Machine.execNocWra init tag e s
  | .nocAtr init tag e => Sys2Proof.Machine.execNocAtr init tag e s
  | .nocErr init tag e => Sys2Proof.Machine.execNocErr init tag e s
  | .responseTimeout init tag => Sys2Proof.Machine.execResponseTimeout init tag s
  | .deadTagExpire init tag => Sys2Proof.Machine.execDeadTagExpire init tag s
  | .c0GapExpire init => Sys2Proof.Machine.execC0GapExpire init s
  | .holdTimeout r slot => Sys2Proof.Machine.execHoldTimeout r slot s
  | .linkCrcError r l row => Sys2Proof.Machine.execLinkCrcError r l row s
  | .linkRetrainDone r l => Sys2Proof.Machine.execLinkRetrainDone r l s
  | .linkRetrainFail r l => Sys2Proof.Machine.execLinkRetrainFail r l s
  | .routerChange r => Sys2Proof.Machine.execRouterChange r s
  | .routerChangeDone r cycles => Sys2Proof.Machine.execRouterChangeDone r cycles s
  | .routerChangeAbort r => Sys2Proof.Machine.execRouterChangeAbort r s
  | .statsWindow r k => Sys2Proof.Machine.execStatsWindow r k s
  | .statsClear r k => Sys2Proof.Machine.execStatsClear r k s
  | .linkCountersClear r => Sys2Proof.Machine.execLinkCountersClear r s
  | .lineWriteBack m => Sys2Proof.Machine.execLineWriteBack m s
  | .mcRefresh m bank => Sys2Proof.Machine.execMcRefresh m bank s
  | .mcTempHigh m => Sys2Proof.Machine.execMcTempHigh m s
  | .mcPowerDown m => Sys2Proof.Machine.execMcPowerDown m s
  | .mcTrainingStart m => Sys2Proof.Machine.execMcTrainingStart m s
  | .mcTrainingDone m failch dur => Sys2Proof.Machine.execMcTrainingDone m failch dur s
  | .mcRetrain m => Sys2Proof.Machine.execMcRetrain m s
  | .mcRetrainDone m failch dur => Sys2Proof.Machine.execMcRetrainDone m failch dur s
  | .commandConfirm m => Sys2Proof.Machine.execCommandConfirm m s
  | .parityAlert m => Sys2Proof.Machine.execParityAlert m s
  | .mcRecoveryDone m failch ok dur => Sys2Proof.Machine.execMcRecoveryDone m failch ok dur s
  | .patrolScrub m errs => Sys2Proof.Machine.execPatrolScrub m errs s
  | .mcErrClear m => Sys2Proof.Machine.execMcErrClear m s
  | .guardInit m => Sys2Proof.Machine.execGuardInit m s
  | .guardInitDone m => Sys2Proof.Machine.execGuardInitDone m s
  | .metadataArrive m j errs => Sys2Proof.Machine.execMetadataArrive m j errs s
  | .dataLineArrive m n errs => Sys2Proof.Machine.execDataLineArrive m n errs s
  | .reencryptDone m errs => Sys2Proof.Machine.execReencryptDone m errs s
  | .cacheWriteBack m => Sys2Proof.Machine.execCacheWriteBack m s
  | .rebuildWrite m => Sys2Proof.Machine.execRebuildWrite m s
  | .rebuildDone m => Sys2Proof.Machine.execRebuildDone m s
  | .uerateRearm m => Sys2Proof.Machine.execUerateRearm m s
  | .windowWrite m n rights v => Sys2Proof.Machine.execWindowWrite m n rights v s
  | .guardErrClear m => Sys2Proof.Machine.execGuardErrClear m s
  | .nativeFrameSend l ftype payload => Sys2Proof.Machine.execNativeFrameSend l ftype payload s
  | .nativeFrameReceive l f cw => Sys2Proof.Machine.execNativeFrameReceive l f cw s
  | .ctlIdle l cw => Sys2Proof.Machine.execCtlIdle l cw s
  | .ctlSof l cw => Sys2Proof.Machine.execCtlSof l cw s
  | .ctlAck l seq cw => Sys2Proof.Machine.execCtlAck l seq cw s
  | .ctlNak l seq cw => Sys2Proof.Machine.execCtlNak l seq cw s
  | .ctlAm l logical mask cw => Sys2Proof.Machine.execCtlAm l logical mask cw s
  | .ctlRestripe l mask confirm cw => Sys2Proof.Machine.execCtlRestripe l mask confirm cw s
  | .ctlCap l round part bytes cw => Sys2Proof.Machine.execCtlCap l round part bytes cw s
  | .ctlAbort l cw => Sys2Proof.Machine.execCtlAbort l cw s
  | .ctlSleep l cw => Sys2Proof.Machine.execCtlSleep l cw s
  | .lockLost l => Sys2Proof.Machine.execLockLost l s
  | .laneLoss l logical => Sys2Proof.Machine.execLaneLoss l logical s
  | .restripeAligned l => Sys2Proof.Machine.execRestripeAligned l s
  | .replayTimeout l => Sys2Proof.Machine.execReplayTimeout l s
  | .nakTimeout l => Sys2Proof.Machine.execNakTimeout l s
  | .ackTimer l => Sys2Proof.Machine.execAckTimer l s
  | .detectProbe l found => Sys2Proof.Machine.execDetectProbe l found s
  | .trainDone l mask partnerPre => Sys2Proof.Machine.execTrainDone l mask partnerPre s
  | .trainTimeout l => Sys2Proof.Machine.execTrainTimeout l s
  | .lockDone l => Sys2Proof.Machine.execLockDone l s
  | .lockTimeout l => Sys2Proof.Machine.execLockTimeout l s
  | .capTimeout l => Sys2Proof.Machine.execCapTimeout l s
  | .laneRetrain q lanes => Sys2Proof.Machine.execLaneRetrain q lanes s
  | .lanePowerRequest q v => Sys2Proof.Machine.execLanePowerRequest q v s
  | .sleepEntry l => Sys2Proof.Machine.execSleepEntry l s
  | .rxSignalReturn l => Sys2Proof.Machine.execRxSignalReturn l s
  | .ethLinkFail l => Sys2Proof.Machine.execEthLinkFail l s
  | .streamTx q st data ctl abort => Sys2Proof.Machine.execStreamTx q st data ctl abort s
  | .streamRx q st data ctl err => Sys2Proof.Machine.execStreamRx q st data ctl err s
  | .dmaTx l desc buf readErr => Sys2Proof.Machine.execDmaTx l desc buf readErr s
  | .dmaRx l desc frame bad => Sys2Proof.Machine.execDmaRx l desc frame bad s
  | .dmaKick l => Sys2Proof.Machine.execDmaKick l s
  | .dmaEnable l => Sys2Proof.Machine.execDmaEnable l s
  | .dmaDisable l => Sys2Proof.Machine.execDmaDisable l s
  | .laneErrClear l => Sys2Proof.Machine.execLaneErrClear l s
  | .loadStart init v => Sys2Proof.Machine.execLoadStart init v s
  | .loadAbort init => Sys2Proof.Machine.execLoadAbort init s
  | .streamData src bytes => Sys2Proof.Machine.execStreamData src bytes s
  | .bootDirectoryRead bytes => Sys2Proof.Machine.execBootDirectoryRead bytes s
  | .basteReady => Sys2Proof.Machine.execBasteReady s
  | .basteWaitTimeout => Sys2Proof.Machine.execBasteWaitTimeout s
  | .receiveDone => Sys2Proof.Machine.execReceiveDone s
  | .verifyDone poisoned => Sys2Proof.Machine.execVerifyDone poisoned s
  | .commitDone readOk => Sys2Proof.Machine.execCommitDone readOk s
  | .frameRecord => Sys2Proof.Machine.execFrameRecord s
  | .regRecord => Sys2Proof.Machine.execRegRecord s
  | .memRecord => Sys2Proof.Machine.execMemRecord s
  | .secretRecord => Sys2Proof.Machine.execSecretRecord s
  | .legacyRecord => Sys2Proof.Machine.execLegacyRecord s
  | .trailerRecord => Sys2Proof.Machine.execTrailerRecord s
  | .endRecord => Sys2Proof.Machine.execEndRecord s
  | .startupPll => Sys2Proof.Machine.execStartupPll s
  | .startupOut => Sys2Proof.Machine.execStartupOut s
  | .startupSr => Sys2Proof.Machine.execStartupSr s
  | .startupWe => Sys2Proof.Machine.execStartupWe s
  | .startupWaitMet pin level => Sys2Proof.Machine.execStartupWaitMet pin level s
  | .startupWaitTimeout => Sys2Proof.Machine.execStartupWaitTimeout s
  | .isolationDone => Sys2Proof.Machine.execIsolationDone s
  | .seamFreezeTimeout p => Sys2Proof.Machine.execSeamFreezeTimeout p s
  | .darnerLap d fix noMajority => Sys2Proof.Machine.execDarnerLap d fix noMajority s
  | .darnerFrameCheck p col row errs crcBad => Sys2Proof.Machine.execDarnerFrameCheck p col row errs crcBad s
  | .panelReload p => Sys2Proof.Machine.execPanelReload p s
  | .recoveryDone p => Sys2Proof.Machine.execRecoveryDone p s
  | .recoveryFail p written => Sys2Proof.Machine.execRecoveryFail p written s
  | .darnerStall d => Sys2Proof.Machine.execDarnerStall d s
  | .darnerCtlWrite d v => Sys2Proof.Machine.execDarnerCtlWrite d v s
  | .darnerErrClear d => Sys2Proof.Machine.execDarnerErrClear d s
  | .pnlRecWrite v => Sys2Proof.Machine.execPnlRecWrite v s
  | .lgProgFall => Sys2Proof.Machine.execLgProgFall s
  | .lgProgRise => Sys2Proof.Machine.execLgProgRise s
  | .lgDevice payload => Sys2Proof.Machine.execLgDevice payload s
  | .lgOptions payload => Sys2Proof.Machine.execLgOptions payload s
  | .lgIv payload => Sys2Proof.Machine.execLgIv payload s
  | .lgFrames payload => Sys2Proof.Machine.execLgFrames payload s
  | .lgFinish => Sys2Proof.Machine.execLgFinish s
  | .lgExtest => Sys2Proof.Machine.execLgExtest s
  | .lgSamplePreload => Sys2Proof.Machine.execLgSamplePreload s
  | .lgIdcode => Sys2Proof.Machine.execLgIdcode s
  | .lload bits => Sys2Proof.Machine.execLload bits s
  | .lstatus => Sys2Proof.Machine.execLstatus s
  | .lclear => Sys2Proof.Machine.execLclear s
  | .lkey key => Sys2Proof.Machine.execLkey key s
  | .ldone => Sys2Proof.Machine.execLdone s
  | .lscan0 => Sys2Proof.Machine.execLscan0 s
  | .lscan1 => Sys2Proof.Machine.execLscan1 s
  | .lgNative => Sys2Proof.Machine.execLgNative s
  | .lgBypass => Sys2Proof.Machine.execLgBypass s
  | .oscTrim => Sys2Proof.Machine.execOscTrim s
  | .refLoss code d => Sys2Proof.Machine.execRefLoss code d s
  | .refValid code d khz => Sys2Proof.Machine.execRefValid code d khz s
  | .pllLock ix => Sys2Proof.Machine.execPllLock ix s
  | .pllOdivWrite ix v => Sys2Proof.Machine.execPllOdivWrite ix v s
  | .pllCfgWrite ix v => Sys2Proof.Machine.execPllCfgWrite ix v s
  | .clockStallReg r => Sys2Proof.Machine.execClockStallReg r s
  | .clockForce init v => Sys2Proof.Machine.execClockForce init v s
  | .forceRelease => Sys2Proof.Machine.execForceRelease s
  | .clkoutWrite k v => Sys2Proof.Machine.execClkoutWrite k v s
  | .clkoutForce k => Sys2Proof.Machine.execClkoutForce k s
  | .pwrOppWrite d v => Sys2Proof.Machine.execPwrOppWrite d v s
  | .freqSlewDone d => Sys2Proof.Machine.execFreqSlewDone d s
  | .avsAck d => Sys2Proof.Machine.execAvsAck d s
  | .avsTimeout d => Sys2Proof.Machine.execAvsTimeout d s
  | .avsRetry d => Sys2Proof.Machine.execAvsRetry d s
  | .voltageSettled d => Sys2Proof.Machine.execVoltageSettled d s
  | .voteSet init v => Sys2Proof.Machine.execVoteSet init v s
  | .voteClr init v => Sys2Proof.Machine.execVoteClr init v s
  | .domainLingerExpire n => Sys2Proof.Machine.execDomainLingerExpire n s
  | .domainEntryDone n => Sys2Proof.Machine.execDomainEntryDone n s
  | .cgRegate n => Sys2Proof.Machine.execCgRegate n s
  | .resetSourceAssert code reach => Sys2Proof.Machine.execResetSourceAssert code reach s
  | .resetSourceRelease code => Sys2Proof.Machine.execResetSourceRelease code s
  | .resetStretchExpire => Sys2Proof.Machine.execResetStretchExpire s
  | .resetRelease => Sys2Proof.Machine.execResetRelease s
  | .rstNLow => Sys2Proof.Machine.execRstNLow s
  | .rstNHigh => Sys2Proof.Machine.execRstNHigh s
  | .powerOnDetect => Sys2Proof.Machine.execPowerOnDetect s
  | .vaonBrownout => Sys2Proof.Machine.execVaonBrownout s
  | .coreBrownout rail => Sys2Proof.Machine.execCoreBrownout rail s
  | .railBrownout rail => Sys2Proof.Machine.execRailBrownout rail s
  | .thermalTrip => Sys2Proof.Machine.execThermalTrip s
  | .thermalClear => Sys2Proof.Machine.execThermalClear s
  | .lockstepMismatch => Sys2Proof.Machine.execLockstepMismatch s
  | .hubWatchdogExpire => Sys2Proof.Machine.execHubWatchdogExpire s
  | .rstCmdUnit init v => Sys2Proof.Machine.execRstCmdUnit init v s
  | .rstCmdPanel init v => Sys2Proof.Machine.execRstCmdPanel init v s
  | .rstCmdHub init v => Sys2Proof.Machine.execRstCmdHub init v s
  | .rstCmdWarm init v => Sys2Proof.Machine.execRstCmdWarm init v s
  | .rstCmdCold init v => Sys2Proof.Machine.execRstCmdCold init v s
  | .rstCmdPowerOn init v => Sys2Proof.Machine.execRstCmdPowerOn init v s
  | .rstCmdShutdown init v => Sys2Proof.Machine.execRstCmdShutdown init v s
  | .hubFirmwareReload => Sys2Proof.Machine.execHubFirmwareReload s
  | .powerGood ohms pudsel spId hv7is33 bbLost => Sys2Proof.Machine.execPowerGood ohms pudsel spId hv7is33 bbLost s
  | .hubTrims primaryOk copyOk => Sys2Proof.Machine.execHubTrims primaryOk copyOk s
  | .dieDiscovery found => Sys2Proof.Machine.execDieDiscovery found s
  | .dieTrims recordOk => Sys2Proof.Machine.execDieTrims recordOk s
  | .nocLinkTraining ok => Sys2Proof.Machine.execNocLinkTraining ok s
  | .laneReceiverDetect => Sys2Proof.Machine.execLaneReceiverDetect s
  | .shutdownRequest => Sys2Proof.Machine.execShutdownRequest s
  | .selftestSliceEnd fails margins => Sys2Proof.Machine.execSelftestSliceEnd fails margins s
  | .sliceTimeout => Sys2Proof.Machine.execSliceTimeout s
  | .selftestTotalTimeout => Sys2Proof.Machine.execSelftestTotalTimeout s
  | .fuseProgram init => Sys2Proof.Machine.execFuseProgram init s
  | .fuseProgramDone readBackOk => Sys2Proof.Machine.execFuseProgramDone readBackOk s
  | .bbrWriteCk init => Sys2Proof.Machine.execBbrWriteCk init s
  | .bbrWriteLk init => Sys2Proof.Machine.execBbrWriteLk init s
  | .bbrEraseCk init => Sys2Proof.Machine.execBbrEraseCk init s
  | .bbrEraseLk init => Sys2Proof.Machine.execBbrEraseLk init s
  | .bbrEraseAll init => Sys2Proof.Machine.execBbrEraseAll init s
  | .tamperPin => Sys2Proof.Machine.execTamperPin s
  | .voltageGlitch => Sys2Proof.Machine.execVoltageGlitch s
  | .clockGlitch => Sys2Proof.Machine.execClockGlitch s
  | .zeroisationDone => Sys2Proof.Machine.execZeroisationDone s
  | .trngHealthFail => Sys2Proof.Machine.execTrngHealthFail s
  | .trngRead => Sys2Proof.Machine.execTrngRead s
  | .tapReset => Sys2Proof.Machine.execTapReset s
  | .tapExtest => Sys2Proof.Machine.execTapExtest s
  | .tapSamplePreload => Sys2Proof.Machine.execTapSamplePreload s
  | .tapIdcode => Sys2Proof.Machine.execTapIdcode s
  | .tapExtestPulse => Sys2Proof.Machine.execTapExtestPulse s
  | .tapExtestTrain => Sys2Proof.Machine.execTapExtestTrain s
  | .tapHighz => Sys2Proof.Machine.execTapHighz s
  | .tapDbgctl => Sys2Proof.Machine.execTapDbgctl s
  | .tapDbgchal => Sys2Proof.Machine.execTapDbgchal s
  | .tapDbgtoken bytes => Sys2Proof.Machine.execTapDbgtoken bytes s
  | .tokenDecision => Sys2Proof.Machine.execTokenDecision s
  | .levelRequest req => Sys2Proof.Machine.execLevelRequest req s
  | .tapDap => Sys2Proof.Machine.execTapDap s
  | .dapRead addr v => Sys2Proof.Machine.execDapRead addr v s
  | .dapWrite addr v e => Sys2Proof.Machine.execDapWrite addr v e s
  | .tapTrace d => Sys2Proof.Machine.execTapTrace d s
  | .tapCfgin bits => Sys2Proof.Machine.execTapCfgin bits s
  | .tapCfgrd => Sys2Proof.Machine.execTapCfgrd s
  | .tapRstcmd v => Sys2Proof.Machine.execTapRstcmd v s
  | .tapObj => Sys2Proof.Machine.execTapObj s
  | .tapBypass => Sys2Proof.Machine.execTapBypass s
  | .aliasRead init addr => Sys2Proof.Machine.execAliasRead init addr s
  | .debugHalt e => Sys2Proof.Machine.execDebugHalt e s
  | .debugStep e => Sys2Proof.Machine.execDebugStep e s
  | .xtrigFire mask => Sys2Proof.Machine.execXtrigFire mask s
  | .xtrigPin => Sys2Proof.Machine.execXtrigPin s
  | .lockDeferTimeout p q => Sys2Proof.Machine.execLockDeferTimeout p q s
  | .panelResume p => Sys2Proof.Machine.execPanelResume p s
  | .traceEnable d v => Sys2Proof.Machine.execTraceEnable d v s
  | .vtTxWrite e v => Sys2Proof.Machine.execVtTxWrite e v s
  | .vtTxRead e => Sys2Proof.Machine.execVtTxRead e s
  | .vtRxWrite e v => Sys2Proof.Machine.execVtRxWrite e v s
  | .vtRxRead e => Sys2Proof.Machine.execVtRxRead e s
  | .d2dWireFault crossing group wire => Sys2Proof.Machine.execD2dWireFault crossing group wire s
  | .d2dSwapDone crossing => Sys2Proof.Machine.execD2dSwapDone crossing s
  | .repairCommit => Sys2Proof.Machine.execRepairCommit s
  | .uluatOpen c tid level cn => Sys2Proof.Machine.execUluatOpen c tid level cn s
  | .uluatAuth c m => Sys2Proof.Machine.execUluatAuth c m s
  | .authTimeout slot => Sys2Proof.Machine.execAuthTimeout slot s
  | .uluatRead c m => Sys2Proof.Machine.execUluatRead c m s
  | .uluatWrite c m => Sys2Proof.Machine.execUluatWrite c m s
  | .objectExecute => Sys2Proof.Machine.execObjectExecute s
  | .uluatSeg c sid tid seq data last tag => Sys2Proof.Machine.execUluatSeg c sid tid seq data last tag s
  | .uluatSegack c sid tid seq retry tag => Sys2Proof.Machine.execUluatSegack c sid tid seq retry tag s
  | .segmentTimeout slot => Sys2Proof.Machine.execSegmentTimeout slot s
  | .uluatSubscribe c m => Sys2Proof.Machine.execUluatSubscribe c m s
  | .uluatClose c m => Sys2Proof.Machine.execUluatClose c m s
  | .sessionIdle slot => Sys2Proof.Machine.execSessionIdle slot s
  | .canBusOff => Sys2Proof.Machine.execCanBusOff s
  | .regBridgeRead slot => Sys2Proof.Machine.execRegBridgeRead slot s
  | .regBridgeWrite slot v => Sys2Proof.Machine.execRegBridgeWrite slot v s
  | .publicationWrite slot entry v => Sys2Proof.Machine.execPublicationWrite slot entry v s
  | .bitModeClock c ix edge => Sys2Proof.Machine.execBitModeClock c ix edge s
  | .pllStepTimeout => Sys2Proof.Machine.execPllStepTimeout s
  | .sourceError => Sys2Proof.Machine.execSourceError s

end Sys2Proof.Machine
end

