-- ==== Sys2Proof/Machine/Memory.lean ====
section
/-! DEFINITION. The canonical form of the block's memories (log entry 3): keys rising, and no entry equal to what an
unlisted key reads as. -/

namespace Sys2Proof.Machine
open Sys2Proof

/-- A bank's words, valid bits, spare and page-buffer words, and repair entries (R184). -/
def bankWf (b : Bank) : Bool :=
  twf zeroWord b.words && twf false b.valid && twf zeroWord b.spare && twf 0 b.remap && twf zeroWord b.buf && twf false b.inBuf

/-- An engine's data memory and program memory. -/
def engWf (x : Engine) : Bool := twf {} x.dm && twf zeroWord x.pm

/-- A guard's stored lines of data and metadata, minor and major counters, tree nodes and root (R271, R307). -/
def grdWf (g : Guard) : Bool :=
  twf [] g.lines && twf [] g.metas && twf 127 g.minors && twf 0 g.majors && twf 0 g.nodes && twf 0 g.root

/-- Every memory of the block is in canonical form. -/
def memoryWf (s : State) : Bool :=
  twf {} s.banks && s.banks.all (fun p => bankWf p.2) && twf {} s.engines && s.engines.all (fun p => engWf p.2) &&
  twf {} s.guards && s.guards.all (fun p => grdWf p.2) && twf [] s.frames && twf 0 s.sec.fuses && twf false s.sec.commit &&
  twf 0 s.sec.bbram

end Sys2Proof.Machine
end

