-- ==== Sys2Proof/Safety.lean ====
section
/-! DEFINITION. What counts as a safe run of the block, the frames that claims use, and what claims say of each kind of
unit in the terms of the spec's rules. -/

namespace Sys2Proof.Safety
open Sys2Proof Sys2Proof.Machine

/-- A step that answers a next state. -/
def Completes (s : State) : Prop := ∃ t, step s = .next t

/-- n steps in a row, each of which answers a next state. -/
def Runs : Nat → State → State → Prop
  | 0, s, t => t = s
  | n + 1, s, t => ∃ u, step s = .next u ∧ Runs n u t

/-- Every request a unit has accepted, or all units have, is a read: answered early it leaves its target as it was (R41). -/
abbrev ReadsOnly (s : State) (k : Nat) : Prop := ∀ r ∈ s.noc.accepted, r.unit = k → r.isRead = true
abbrev AllReads (s : State) : Prop := ∀ r ∈ s.noc.accepted, r.isRead = true

/-! ### Registers and units -/

/-- Registers whose fields are all CONST or RO, and those whose writable fields are all RW, or all W1C, with the bits of those
fields (R13). -/
def regsRo : List RegKind :=
  [.rstCause, .rstState, .pwrWake, .cfgProg, .secState, .drnLog, .stLat, .stSum, .stBytes, .stHist, .mcCfg, .mcGcfg, .mcGsel, .mcMap, .mcStat,
   .mcErraddr, .grdStat, .grdErraddr, .lnCfg, .lnStat, .bnkRepair, .engStat]
def regsRw : List (RegKind × Word) :=
  [(.pwrAvs, 0xC000FFFFFFFFFFFF), (.dbgIbp, 0x80000000000003FF), (.dbgDbp, 0xE00007FF000007FF), (.dbgXt, 0x0000FFFF0000FFFF), (.nocQos, 0xFFFFFF),
   (.grdCtl, 0x0000FFFF00000001)]
def regsW1c : List (RegKind × Word) :=
  [(.clkRef, 0x00F0000000000000), (.clkStall, 0xFFFFFFFFFFFFFFFF), (.pllStat, 0x0800000000000000), (.cfgStat, 0x0000004000000000),
   (.pnlStat, 0x0600000000000000), (.almStat, 0x1FFF), (.fusStat, 0x4000000000000000), (.drnStat, 0x0E00000000000000)]

/-- No register but r changes, and nothing that is no register. -/
def RegAlone (s t : State) (r : Reg) : Prop :=
  (∀ a x, regOf a = some x → x ≠ r → regRead t x = regRead s x)
  ∧ t = { s with clk := t.clk, pwr := t.pwr, ld := t.ld, panels := t.panels, sec := t.sec, dbg := t.dbg, darners := t.darners, engines := t.engines,
                 routers := t.routers, guards := t.guards }

/-- A unit, not a controller, with nothing of its own to abort when it stops. -/
abbrev Calm (s : State) (k : Nat) : Prop :=
  (k < 5000 ∨ 9000 ≤ k) ∨ (5100 ≤ k ∧ k < 5132 ∧ ∀ i, i < 4 → (strmOf s (k - 5100) i).txOpen = false)
  ∨ (5200 ≤ k ∧ k < 5328 ∧ (laneOf s (k - 5200)).txPart = []) ∨ (6000 ≤ k ∧ k < 8048 ∧ (portOf s (k - 6000)).buf = [] ∧ ∀ o ∈ s.noc.outst, o.init ≠ 0x2000 + (k - 6000))
/-! ### Word cells (R42 to R64) -/

/-- The registers and outputs of cell c. -/
def cellOf (s : State) (c : Nat) : Cell := tget {} s.cells c

/-- Input k of cell c is used: 0 to 3 are WI0 to WI3, 4 to 11 BI0 to BI7; an unused one is 0 (R86). -/
abbrev InputUsed (s : State) (c k : Nat) : Prop := nfld (cellFrameWord s c 7).toNat (5 * k + 4) (5 * k) ≠ 31
/-- What cell c sees of routed inputs: CI and EI are the CO and EO of the cell below it, 0 and 1 in the bottom row (R46; log entry
21). -/
abbrev CellSees (s : State) (c : Nat) (inp : CellIn) (i : CellPins) : Prop :=
  i.wi0 = (if InputUsed s c 0 then inp.wi0 else 0) ∧ i.wi1 = (if InputUsed s c 1 then inp.wi1 else 0)
  ∧ i.wi2 = (if InputUsed s c 2 then inp.wi2 else 0) ∧ i.wi3 = (if InputUsed s c 3 then inp.wi3 else 0)
  ∧ (∀ k, k < 8 → (i.bi.getLsbD k = true ↔ inp.bi.getLsbD k = true ∧ InputUsed s c (4 + k)))
  ∧ i.ci = (if c % 256 = 0 then false else (cellOf s (c - 1)).co) ∧ i.ei = (if c % 256 = 0 then true else (cellOf s (c - 1)).eo)

/-- The energy of an executed operation (R71), in hundredths of a picojoule. -/
def opEnergy (op : Nat) : Nat := if 0x20 ≤ op then 160 else 55

/-- The slot that cell c executes in a cycle with inputs i (R57). -/
def cellNow (s : State) (c : CellId) (i : CellPins) : Nat := cellSlot s c (cellIndex (cellCtl s c) (cellOf s c).ctx i)

/-- Cell c is in word mode, its clock runs, its reset does not hold it, and the slot of this cycle holds operation op. -/
abbrev CellClocked (s : State) (c : CellId) (i : CellPins) (op : Nat) : Prop :=
  nbit (cellCtl s c) 0 = false ∧ rclkRuns s (cellRclk s c) = true
  ∧ (nbit (cellCtl s c) 10 = false ∨ rclkInReset s (cellRclk s c) = false)
  ∧ nfld (cellNow s c i) 47 42 = op

/-- The cell executes operation op: it is clocked, enabled (R49) and its predicate is true (R52). -/
abbrev CellRuns (s : State) (c : CellId) (i : CellPins) (op : Nat) : Prop :=
  CellClocked s c i op ∧ cellEnabled (cellCtl s c) i = true
  ∧ cellPred (nfld (cellNow s c i) 27 24) (cellOf s c) i = true

/-- Register r of a cell: A, B, C, D. -/
def cellReg (x : Cell) (r : Nat) : Word :=
  match r with
  | 0 => x.a
  | 1 => x.b
  | 2 => x.c
  | _ => x.d

/-- An operand coded as SA: a register, or a word input (R50). -/
def cellSel (x : Cell) (i : CellPins) (n : Nat) : Word :=
  match n with
  | 4 => i.wi0
  | 5 => i.wi1
  | 6 => i.wi2
  | 7 => i.wi3
  | r => cellReg x r

/-- The immediate of a slot at full width (R51): IMM extended to a lane and repeated in every lane. -/
def cellImmW (slot : Nat) : Word :=
  let imm : BitVec 16 := BitVec.ofNat 16 slot
  let sgn := nbit slot 16
  match nfld slot 19 18 with
  | 0 => if sgn then imm.signExtend 64 else imm.setWidth 64
  | 1 => let x : BitVec 32 := if sgn then imm.signExtend 32 else imm.setWidth 32
         x ++ x
  | 2 => imm ++ imm ++ imm ++ imm
  | _ => let b : BitVec 8 := imm.setWidth 8
         b ++ b ++ b ++ b ++ b ++ b ++ b ++ b

def cellA (s : State) (c : CellId) (i : CellPins) : Word := cellSel (cellOf s c) i (nfld (cellNow s c i) 41 39)
def cellB (s : State) (c : CellId) (i : CellPins) : Word :=
  if nbit (cellNow s c i) 35 then cellImmW (cellNow s c i) else cellSel (cellOf s c) i (nfld (cellNow s c i) 38 36)

/-- The number of lanes that WIDTH gives, and the bits of one. -/
def cellLanes (slot : Nat) : Nat := 2 ^ nfld slot 19 18
def cellLaneW (slot : Nat) : Nat := 64 / 2 ^ nfld slot 19 18

/-- Lane k of a word of n-bit lanes. -/
def laneOfW (n k : Nat) (x : Word) : BitVec n := x.extractLsb' (n * k) n

/-- A lane as a number, signed or unsigned. -/
def laneVal {n : Nat} (sgn : Bool) (x : BitVec n) : Int := if sgn then x.toInt else x.toNat

/-- Nothing but cell c changes, and the activity that its die's limiter counts, which grows by the cycle's energy e (R71, R73). -/
def CellOnly (s t : State) (c e : Nat) : Prop :=
  t = { s with cells := t.cells, gov := { s.gov with dies := t.gov.dies } } ∧ (∀ k, k ≠ c → cellOf t k = cellOf s k)
  ∧ ∀ d, dieGov t d = { dieGov s d with act := (dieGov s d).act + if d = c / 294912 then e else 0 }

/-- Value that a word output or BO3 to BO0 takes by its select (R50). -/
def woutOf (sel : Nat) (old res a : Word) : Word := if sel = 0 then old else if sel = 1 then res else if sel = 2 then a else 0
def boutOf (sel : Nat) (old : BitVec 4) (res : Word) (z n c v : Bool) : BitVec 4 :=
  if sel = 0 then old
  else if sel = 1 then BitVec.ofBool v ++ BitVec.ofBool n ++ BitVec.ofBool c ++ BitVec.ofBool z
  else if sel = 2 then res.setWidth 4 else 0

/-- The index of the next cycle (R57): a sequence goes on; otherwise the stored index is not used and holds. -/
def nextIx (ctl ix : Nat) : Nat := if nfld ctl 2 1 = 1 then (ix + 1) % (nfld ctl 5 3 + 1) else ix

/-- What a cycle that executes writes (R42, R50, R55, R57): the result, the flags as they are after it, CO and EO.
`wr` says whether the operation may write a register. -/
structure CellWrote (s t : State) (c : CellId) (i : CellPins) (wr : Bool) (res : Word) (z n cy v co eo : Bool) : Prop where
  frame : CellOnly s t c (opEnergy (nfld (cellNow s c i) 47 42))
  regs : ∀ r, r < 4 → cellReg (cellOf t c) r =
    if wr = true ∧ nbit (cellNow s c i) 32 = true ∧ r = nfld (cellNow s c i) 34 33 then res else cellReg (cellOf s c) r
  flags : (cellOf t c).z = z ∧ (cellOf t c).n = n ∧ (cellOf t c).cy = cy ∧ (cellOf t c).v = v
  wo0 : (cellOf t c).wo0 = woutOf (nfld (cellNow s c i) 31 30) (cellOf s c).wo0 res (cellA s c i)
  wo1 : (cellOf t c).wo1 = woutOf (nfld (cellNow s c i) 29 28) (cellOf s c).wo1 res (cellA s c i)
  bo : (cellOf t c).bo = boutOf (nfld (cellNow s c i) 21 20) (cellOf s c).bo res z n cy v
  chain : (cellOf t c).co = co ∧ (cellOf t c).eo = eo
  ctx : (cellOf t c).ctx = nextIx (cellCtl s c) (cellOf s c).ctx
  ffx : (cellOf t c).ffx = (cellOf s c).ffx

/-- An operation that writes Z and N alone, and one that writes Z alone; CO and EO are 0 (R54 to R56). -/
def WroteZN (s t : State) (c : CellId) (i : CellPins) (res : Word) : Prop :=
  CellWrote s t c i true res (res == 0) res.msb (cellOf s c).cy (cellOf s c).v false false
def WroteZ (s t : State) (c : CellId) (i : CellPins) (res : Word) : Prop :=
  CellWrote s t c i true res (res == 0) (cellOf s c).n (cellOf s c).cy (cellOf s c).v false false

/-- The carry-in of lane k (R54, R56): `one` is 1 for SUB and CMP. -/
def cellCin (slot one k : Nat) (i : CellPins) : Nat :=
  if k ≠ 0 then one else if nfld slot 23 22 = 0 then one else if nfld slot 23 22 = 2 then 1 else i.ci.toNat

/-- The sum of lane k, unsigned and in full: A + B + c, or A + NOT B + c. -/
def sumNat (sub : Bool) (s : State) (c : CellId) (i : CellPins) (k : Nat) : Nat :=
  let w := cellLaneW (cellNow s c i)
  let b := laneOfW w k (cellB s c i)
  (laneOfW w k (cellA s c i)).toNat + (if sub then ~~~b else b).toNat + cellCin (cellNow s c i) sub.toNat k i
/-- The same sum of the lanes taken as signed numbers. -/
def sumInt (sub : Bool) (s : State) (c : CellId) (i : CellPins) (k : Nat) : Int :=
  let w := cellLaneW (cellNow s c i)
  let b := laneOfW w k (cellB s c i)
  (laneOfW w k (cellA s c i)).toInt + (if sub then ~~~b else b).toInt + (cellCin (cellNow s c i) sub.toNat k i : Nat)
/-- The sum or difference of lane k as SGN reads the lanes. -/
def sumExact (sub : Bool) (s : State) (c : CellId) (i : CellPins) (k : Nat) : Int :=
  let w := cellLaneW (cellNow s c i)
  let g := nbit (cellNow s c i) 16
  let a := laneVal g (laneOfW w k (cellA s c i))
  let b := laneVal g (laneOfW w k (cellB s c i))
  let cin : Int := (cellCin (cellNow s c i) sub.toNat k i : Nat)
  if sub then a - b - 1 + cin else a + b + cin
/-- The limits of a lane (R55). -/
def laneLo (sgn : Bool) (w : Nat) : Int := if sgn then -(2 ^ (w - 1) : Int) else 0
def laneHi (sgn : Bool) (w : Nat) : Int := if sgn then 2 ^ (w - 1) - 1 else 2 ^ w - 1

/-- Carry-out and signed overflow of the most significant lane (R55). -/
def topCarry (sub : Bool) (s : State) (c : CellId) (i : CellPins) : Bool :=
  decide (2 ^ cellLaneW (cellNow s c i) ≤ sumNat sub s c i (cellLanes (cellNow s c i) - 1))
def topOverflow (sub : Bool) (s : State) (c : CellId) (i : CellPins) : Bool :=
  let w := cellLaneW (cellNow s c i)
  let x := sumInt sub s c i (cellLanes (cellNow s c i) - 1)
  decide (x < -(2 ^ (w - 1) : Int) ∨ (2 ^ (w - 1) : Int) ≤ x)

/-- ADD or SUB: every lane of the result, and V (R54 to R56). -/
def SumIs (sub : Bool) (s : State) (c : CellId) (i : CellPins) (res : Word) (v : Bool) : Prop :=
  let slot := cellNow s c i
  let w := cellLaneW slot
  let g := nbit slot 16
  if nbit slot 17 = false then
    (∀ k, k < cellLanes slot → (laneOfW w k res).toNat = sumNat sub s c i k % 2 ^ w) ∧ v = topOverflow sub s c i
  else
    (∀ k, k < cellLanes slot → laneVal g (laneOfW w k res) = max (laneLo g w) (min (laneHi g w) (sumExact sub s c i k)))
    ∧ (v = true ↔ ∃ k, k < cellLanes slot ∧ (sumExact sub s c i k < laneLo g w ∨ laneHi g w < sumExact sub s c i k))

/-- A 16-bit lane as SGN reads it, and the product of lane k of A and B. -/
def mulLane (s : State) (c : CellId) (i : CellPins) (k : Nat) : Int :=
  laneVal (nbit (cellNow s c i) 16) (laneOfW 16 k (cellA s c i)) * laneVal (nbit (cellNow s c i) 16) (laneOfW 16 k (cellB s c i))
/-- The sum of the four products. -/
def dotSum (s : State) (c : CellId) (i : CellPins) : Int :=
  mulLane s c i 0 + mulLane s c i 1 + mulLane s c i 2 + mulLane s c i 3

/-- p and l of EXT and INS. -/
def fieldP (slot : Nat) : Nat := nfld slot 5 0
def fieldL (slot : Nat) : Nat := nfld slot 11 6 + 1

/-- The slot vector's LUT k of a bit-mode cell on input lines of bit j of WI3 to WI0 (R60, R61). -/
def lutBit (V k j : Nat) (i : CellPins) : Bool :=
  nbit V (16 * k + (8 * (i.wi3.getLsbD j).toNat + 4 * (i.wi2.getLsbD j).toNat + 2 * (i.wi1.getLsbD j).toNat
    + (i.wi0.getLsbD j).toNat))
/-- Bit b of the settings byte of element k. -/
def setBitOf (V k b : Nat) : Bool := nbit V (256 + 8 * k + b)
/-- The combinational output of element k (R61 to R63): an even element with L5 takes the LUT5, an odd one beside it the same
four inputs. -/
def combBit (V k : Nat) (i : CellPins) : Bool :=
  if k % 2 = 0 then
    if setBitOf V k 7 then (if i.wi0.getLsbD (k + 1) then lutBit V (k + 1) k i else lutBit V k k i) else lutBit V k k i
  else if setBitOf V (k - 1) 7 then lutBit V k (k - 1) i else lutBit V k k i
/-- The flip-flop output of element k: WO0[k] (R64). -/
def ffOut (s : State) (c : CellId) (k : Nat) : Bool := ((cellOf s c).ffx.getLsbD k) != setBitOf (cellVec s c) k 6
/-- The next output of the flip-flop of element k below the regional reset (R64). -/
def ffNext (s : State) (c : CellId) (i : CellPins) (k : Nat) : Bool :=
  let V := cellVec s c
  let sr := nfld V (256 + 8 * k + 4) (256 + 8 * k + 3)
  let ce := nfld V (256 + 8 * k + 2) (256 + 8 * k + 1)
  if sr ≠ 0 ∧ i.bi.getLsbD (sr + 2) = true then setBitOf V k 6
  else if cellEnabled (cellCtl s c) i = false then ffOut s c k
  else if ce ≠ 0 ∧ i.bi.getLsbD (ce - 1) = false then ffOut s c k
  else if setBitOf V k 0 then i.wi3.getLsbD k else combBit V k i

/-! ### Regional clocks and reset trees (R91 to R104) -/

/-- Nothing but regional clock r changes. -/
def RclkOnly (s t : State) (r : Nat) : Prop :=
  t = { s with rclks := t.rclks } ∧ ∀ k, k ≠ r → rclkGet t k = rclkGet s k

/-- The reset tree of regional clock r is asserted: every cell on that clock that takes the reset is at zero, every other
cell and every other clock as it was (R44, R100, R101). -/
def TreeAsserted (s t : State) (r : Nat) : Prop :=
  (rclkGet t r).rst = true
  ∧ (∀ c, cellOf t c = if cellRclk s c = r ∧ nbit (cellCtl s c) 10 = true then {} else cellOf s c)
  ∧ (∀ k, k ≠ r → rclkGet t k = rclkGet s k)
  ∧ t = { s with cells := t.cells, rclks := t.rclks }

/-- The source of R100 holds the tree of regional clock r. -/
def treeSrcHolds (s : State) (r : Nat) (src : TreeSrc) : Bool :=
  match src with
  | .wide => wideActive s.rst
  | .panel => panelHeld s (r / 16)
  | .load => !panelReleased s (r / 16)
  | .rrst => fld (rclkCfg s r) 43 42 == 1 && tapUsed s r 0 || fld (rclkCfg s r) 43 42 == 2
  | .force => (rclkGet s r).forced

/-- The headroom of die d covers point k (log entry 47): its estimate before, scaled by voltage squared and clock factor, is within the
limit it has after. -/
abbrev Headroom (s t : State) (d k : Nat) : Prop :=
  (dieGov s d).est * (oppMv k ^ 2 * oppPhi k) ≤ (dieGov t d).limit * 10 ^ 8 * (oppMv (oppCUR (oppOf s d)) ^ 2 * oppPhi (oppCUR (oppOf s d)))

/-! ### Signal engines (R105 to R183) -/

/-- The engine in its issue cycle, what was due landed, and the instruction word at its PC. -/
def engAt (s : State) (e : Nat) : Engine := (engReady s.fresh (eng s e)).1
def engWord (s : State) (e : Nat) : Nat := (tget { val := 0, pois := false } (engAt s e).pm (engAt s e).pc).val.toNat
/-- The stores of this issue are suppressed (R136). -/
def skipSt (x : Engine) : Bool := decide (0 < x.repLeft) && decide (0 < x.repSsk)

/-- Engine e issues an instruction with operation op in this cycle: it runs, nothing stalls it, no exception or breakpoint is
due, and it is not single-stepped. -/
abbrev EngIssues (s : State) (e : Nat) (op : Nat) : Prop :=
  engOff s e = false ∧ (engReady s.fresh (eng s e)).2 = Ready.go (engWord s e) ∧ iOp (engWord s e) = op
  ∧ (engAt s e).stepping = false ∧ dbpHit (engAt s e) (engWord s e) (skipSt (engAt s e)) = false

/-- Nothing outside engine e changes but the trace ring and the count of free values taken. -/
def EngOnly (s t : State) (e : Nat) : Prop :=
  t = { s with engines := t.engines, fresh := t.fresh, dbg := { s.dbg with trc := t.dbg.trc } }
  ∧ ∀ k, k ≠ e → eng t k = eng s k

/-- What the issue of an instruction that is not a control operation leaves: every register, memory and mode as it was
(results are in flight), and the sequence moved on: within a repeat one issue fewer, else to the next address where no delay
slot or loop is under way (R136, R137). -/
def EngIssued (s t : State) (e : Nat) : Prop :=
  let x := engAt s e
  let y := eng t e
  EngOnly s t e
  ∧ y = { x with flights := y.flights, lastKind := y.lastKind, raq := y.raq, slots := 0, skipIbp := false, retPath := false,
                 pc := y.pc, point := y.point, lp0 := y.lp0, lp1 := y.lp1, repLeft := x.repLeft - 1,
                 repSsk := y.repSsk, repFirst := y.repFirst, dsLeft := y.dsLeft, dsNext := y.dsNext }
  ∧ (x.repLeft = 0 → x.dsLeft = 0 → innermost x = none → y.pc = (x.pc + 1) % 1024 ∧ y.lp0 = x.lp0 ∧ y.lp1 = x.lp1)

/-- The flights an issue adds for its memory slots and their post-modifies, which move a generator's index and, in two-dimensional
mode, its count (R116, R128, R140). -/
def slotAdds (x : Engine) (w : Nat) (fl : Flight) : Prop :=
  (∃ k, k < 2 ∧ ∃ p, p ∈ slotFlights x w k (skipSt x) [] (!nbit x.slots (2 * k)) (!nbit x.slots (2 * k + 1)) ∧
    fl = { due := x.cyc + p.1, rank := 4 * x.cyc + k, act := p.2 })
  ∨ ∃ g, g ∈ postList w (skipSt x) ∧
    (fl = { due := x.cyc + 1, rank := 4 * x.cyc + 2, act := .part g (fldMask 22 12) (agGet (postAll x w (skipSt x)) g) false }
     ∨ fld (agGet x g) 63 62 = 3 ∧ fl = { due := x.cyc + 1, rank := 4 * x.cyc + 2, act := .part (8 + g) (fldMask 10 0) (agxGet (postAll x w (skipSt x)) g) false })

/-- What is in flight after the issue: what was and is kept, what the memory slots add, and the operation's own results, each
(latency, effect). -/
def InFlight (s t : State) (e : Nat) (keep : Flight → Prop) (own : List (Nat × Act)) : Prop :=
  let x := engAt s e
  ∀ fl, fl ∈ (eng t e).flights ↔
    (fl ∈ x.flights ∧ keep fl) ∨ slotAdds x (engWord s e) fl
    ∨ ∃ p, p ∈ own ∧ fl = { due := x.cyc + p.1, rank := 4 * x.cyc + 2, act := p.2 }
def keepAll (_ : Flight) : Prop := True
/-- ARDC and ACLR discard what MAC and FTAP have on the way to their accumulator (R138). -/
def notToAcc (a : Nat) (fl : Flight) : Prop :=
  match fl.act with
  | .lanes .accv ws => ∀ p, p ∈ ws → p.1 / 12 ≠ a
  | _ => True

/-- Lanes placed in V register r. -/
def inV (r : Nat) (ls : List Lane) : Act := .lanes .v (ls.zipIdx.map (fun p => (r * 4 + p.2, p.1)))
/-- Accumulator a zero in every lane and slice. -/
def accZero (a : Nat) : Act := .lanes .accb (accWrites a (List.replicate 4 [{}, {}, {}]))

/-- Part p (0 to 3) of a CI16 lane as a number, and a lane built of four parts. -/
def partOf (l : Lane) (p : Nat) : Int := (l.val.extractLsb' (16 * p) 16).toInt
/-- sat_w and rshr_s of R120. -/
def satOf (w : Nat) (x : Int) : Int := max (-(2 ^ (w - 1) : Int)) (min (2 ^ (w - 1) - 1) x)
def rshrOf (sh : Nat) (x : Int) : Int := if sh = 0 then x else (x + 2 ^ (sh - 1)) / 2 ^ sh
/-- The parts of b′ (R121): the imaginary part negated by CJ, both by NG. -/
def bPart (cj ng : Bool) (b : Lane) (p : Nat) : Int :=
  (if ng then -1 else 1) * (if p % 2 = 1 ∧ cj = true then -1 else 1) * partOf b p
/-- Part p of the exact product of packed samples a and b′ (R121). -/
def prodPart (cj ng : Bool) (a b : Lane) (p : Nat) : Int :=
  if p % 2 = 0 then partOf a p * bPart cj ng b p - partOf a (p + 1) * bPart cj ng b (p + 1)
  else partOf a (p - 1) * bPart cj ng b p + partOf a p * bPart cj ng b (p - 1)

/-- A CI16 lane holds, part by part, f limited to 16 bits, with the given mask; and whether any part saturated. -/
def IsSat16 (l : Lane) (pend : BitVec 4) (f : Nat → Int) : Prop :=
  (∀ p, p < 4 → partOf l p = satOf 16 (f p)) ∧ l.pend = pend ∧ l.pois = false
def anySat (w : Nat) (n : Nat) (f : Nat → Int) : Bool := (List.range n).any (fun p => satOf w (f p) != f p)

/-- The two parts of a CF32 lane. -/
def reBits (l : Lane) : Nat := (l.val.extractLsb' 0 32).toNat
def imBits (l : Lane) : Nat := (l.val.extractLsb' 32 32).toNat
/-- A CF32 lane with given parts. -/
def ofParts (re im : Nat) (pend : BitVec 4) : Lane := { val := BitVec.ofNat 64 (re + im * 2 ^ 32), pend := pend }
/-- The bits of b′ in CF32. -/
def bRe (ng : Bool) (b : Lane) : Nat := if ng then f32Neg (reBits b) else reBits b
def bIm (cj ng : Bool) (b : Lane) : Nat := if cj != ng then f32Neg (imBits b) else imBits b
/-- The terms of the exact expressions of a CF32 product, the subtraction of a product as the product by the negated factor. -/
def cRe (cj ng : Bool) (a b : Lane) : List FTerm := [fMul (reBits a) (bRe ng b), fMul (imBits a) (f32Neg (bIm cj ng b))]
def cIm (cj ng : Bool) (a b : Lane) : List FTerm := [fMul (reBits a) (bIm cj ng b), fMul (imBits a) (bRe ng b)]

/-- The words a special register keeps of a write, by the RW fields of its table (R114, R115, R125, R132, R150, R154, R161,
R163). -/
def specMask (n : Nat) : Word :=
  if n < 8 ∨ n = 0x1D then 0xC000FFFFFF7FF7FF
  else if n < 16 then 0x0000FFFFFF0007FF
  else if n = 0x10 then 0xF000FFF000000FFF
  else if n = 0x12 then 0x8000000000FFFF0F
  else if n = 0x13 then 0xFFFFFFFFFFFFFFFF
  else if n = 0x14 ∨ n = 0x15 then 0x8000FFFF03FF03FF
  else if n = 0x16 then 0x00000000003F037F
  else if n = 0x18 ∨ n = 0x19 then 0x3FF
  else if n = 0x1B then 0x1FFF000F
  else if n = 0x1F then 0xFFFFFFFFFFFFFFFF
  else 0

/-- A taken branch to address t ends loop l (R147): the target lies outside it. -/
def leaves (t : Nat) (l : Word) : Bool := !(decide (lpStart l ≤ t) && decide (t ≤ lpEnd l))
/-- The engine has no cross-trigger output, so that a stop of it fires nothing. -/
def noXtOut (s : State) (e : Nat) : Bool := fld (eng s e).xt 47 32 == 0

/-- The finite binary32 value of a bit pattern, in units of 2^-149. -/
def isFinite32 (b : Nat) : Prop := b < 2 ^ 32 ∧ nfld b 30 23 ≠ 255

/-- The engine's memories at reset: kept, pending words being poisoned and keeping their data (R112, R149). -/
def EngKept (x y : Engine) : Prop :=
  y.pm = x.pm ∧ ∀ a, tget {} y.dm a = if (tget {} x.dm a).pend = 0 then tget {} x.dm a else { tget {} x.dm a with pois := true, pend := 0 }

/-- The engine's registers at reset: the verdict buffer and the verdict IDs are freed, and ENG_CTL, ENG_WDT stay (R149, R180, R680). -/
def EngCleared (x y : Engine) (last : Nat) : Prop :=
  y.st = .reset ∧ y.lastrst = last ∧ y.ctl = x.ctl ∧ y.wdt = x.wdt
  ∧ y.v = [] ∧ y.s = [] ∧ y.accm = [] ∧ y.accv = [] ∧ y.f = {} ∧ y.ag = [] ∧ y.agx = [] ∧ y.twc = 0xC000000000000000
  ∧ y.xf = 0 ∧ y.bxd = 0xFF0F ∧ y.lp0 = 0 ∧ y.lp1 = 0 ∧ y.ictl = 0 ∧ y.ipend = 0 ∧ y.irp = 0 ∧ y.epc = 0 ∧ y.ecause = 0
  ∧ y.erpt = 0 ∧ y.ag7s = 0 ∧ y.scr = 0 ∧ y.vb = [] ∧ y.vids = 0 ∧ y.bad = 0 ∧ y.xfers = [] ∧ y.flights = []

/-- The saved fields of ICTL at an entry (R154, R156). -/
def EntryIctl (z y : Engine) (ex : Bool) : Prop :=
  bitOf y.ictl 0 = false ∧ bitOf y.ictl 1 = bitOf z.ictl 0 ∧ bitOf y.ictl 2 = true ∧ bitOf y.ictl 3 = bitOf z.ictl 2
  ∧ bitOf y.ictl 4 = (ex || bitOf z.ictl 4) ∧ bitOf y.ictl 5 = bitOf z.ictl 4 ∧ bitOf y.ictl 6 = bitOf z.ictl 6
  ∧ bitOf y.ictl 8 = lpAct z.lp0 ∧ bitOf y.ictl 9 = lpAct z.lp1 ∧ fld y.ictl 21 16 = fld z.ictl 21 16

/-- What an entry leaves, z being the engine with every result landed: loops inactive, AG7 exchanged unless a handler was
running, run-ahead queues discarded, everything else kept (R156). -/
def Entered (z y : Engine) (ex : Bool) (vec : Nat) : Prop :=
  EntryIctl z y ex ∧ y.pc = vec ∧ y.st = .running ∧ y.raq = [] ∧ y.repLeft = 0 ∧ y.dsLeft = 0
  ∧ y.lp0 = setBit z.lp0 63 false ∧ y.lp1 = setBit z.lp1 63 false
  ∧ agGet y 7 = (if bitOf z.ictl 2 then agGet z 7 else z.ag7s) ∧ y.ag7s = (if bitOf z.ictl 2 then z.ag7s else agGet z 7)
  ∧ (∀ g, g < 7 → agGet y g = agGet z g)
  ∧ y = { y with v := z.v, accm := z.accm, accv := z.accv, f := z.f, s := z.s, agx := z.agx, twc := z.twc, xf := z.xf,
                 bxd := z.bxd, ipend := z.ipend, scr := z.scr, dm := z.dm, pm := z.pm, vb := z.vb, vids := z.vids,
                 xfers := z.xfers, bad := z.bad, ctl := z.ctl, wdt := z.wdt }

/-- A result in flight that does not write special register n. -/
def notSpec (n : Nat) (fl : Flight) : Prop :=
  match fl.act with
  | .spec k _ => k ≠ n
  | .part k _ _ _ => k ≠ n
  | _ => True

/-- A slot command's condition: the instruction at PC may issue, its slot k holds that load or store, and it has not been made
in this issue cycle. -/
abbrev SlotReady (s : State) (e k : Nat) (load : Bool) (kind : Nat) : Prop :=
  engOff s e = false ∧ (engReady s.fresh (eng s e)).2 = Ready.go (engWord s e)
  ∧ nbit (engAt s e).slots (2 * k + (if load then 0 else 1)) = false
  ∧ (if load then slLk (iSlot (engWord s e) k) else slSk (iSlot (engWord s e) k)) = kind
  ∧ (load = false → skipSt (engAt s e) = false)

/-- What a slot command leaves: the slot marked as made and one more result in flight. -/
def SlotMade (s t : State) (e k : Nat) (load : Bool) (lat : Nat) (act : Act) : Prop :=
  let x := engAt s e
  let y := eng t e
  y = { x with flights := y.flights, slots := nset x.slots (2 * k + (if load then 0 else 1)) }
  ∧ (∀ fl, fl ∈ y.flights ↔ fl ∈ x.flights ∨ fl = { due := x.cyc + lat, rank := 4 * x.cyc + k, act := act })
  ∧ t = { s with engines := t.engines, fresh := t.fresh, st := t.st, svc := t.svc } ∧ (∀ j, j ≠ e → eng t j = eng s j)

def slotLoad (s : State) (e k : Nat) (flips : List (BitVec 80)) : Act :=
  let sl := iSlot (engWord s e) k
  .load (slLk sl) (agAddr (agGet (engAt s e) (slLag sl))) (slVl sl) (slLag sl) (slLpm sl) flips
def slotStore (s : State) (e k : Nat) : Act :=
  let sl := iSlot (engWord s e) k
  .store (quadBase (slSk sl != 2) (agAddr (agGet (engAt s e) (slSag sl)))) (storeData (engAt s e) sl)
    (if slSk sl = 3 then (if iFmt (engWord s e) then 2 else 1) else 0)

/-- A lane whose pending bit v is cleared, and one that a BAD verdict reaches (R173, R174). -/
def laneGood (v : Nat) (l : Lane) : Lane := { l with pend := l.pend &&& ~~~ (BitVec.ofNat 4 (2 ^ v)) }
def laneBad (v : Nat) (l : Lane) : Lane := if l.pend.getLsbD v then { laneGood v l with pois := true } else l

/-- Every lane of memory and of the registers changed by f. -/
def LanesBy (x y : Engine) (f : Lane → Lane) : Prop :=
  (∀ a, tget {} y.dm a = f (tget {} x.dm a)) ∧ (∀ a, tget {} y.v a = f (tget {} x.v a)) ∧ (∀ a, tget {} y.s a = f (tget {} x.s a))
  ∧ (∀ a, tget {} y.accm a = f (tget {} x.accm a)) ∧ (∀ a, tget {} y.accv a = f (tget {} x.accv a)) ∧ y.f = f x.f


/-! ### Block memory banks -/

/-- The content of word a of a bank wherever it is held: a word of an invalid row is zero (R205). -/
def bankVal (b : Bank) (a : Nat) : PWord := if rowValid b a then rawGet b a else zeroWord

/-- A fabric access to bank n is served: the panel owns the bank, a regional clock runs it, it is ON, no handover is under
way and its wrapper runs (R186, R198, R199, R216). -/
abbrev BankOpen (s : State) (n : Nat) : Prop :=
  ownerFabric (bank s n).own n = true ∧ fld (bank s n).cfg 36 32 < 16 ∧ bankClocked s n = true ∧ bankState s n = 0
  ∧ (bank s n).busy = false ∧ (wrapOf s (bankGroupKey n)).st = WrapSt.running ∧ (panelOf s (bankPanel n)).we = true

/-- Bank n alone changes; a held panel stop may act once reservations go (R593). -/
def BankOnly (s t : State) (n : Nat) : Prop :=
  t = { s with banks := t.banks, fresh := t.fresh, dbg := { s.dbg with xtp := t.dbg.xtp } } ∧ (∀ m, m ≠ n → bank t m = bank s m)

def fabOut (b : Bank) (i : Nat) : FabOut := tget { rdata := zeroWord, rstat := 0 } b.outs i

/-- Interface i answers RDATA and RSTAT; the other keeps its answer (R187). -/
def Answers (x y : Bank) (i : Nat) (w : PWord) (st : Nat) : Prop :=
  fabOut y i = { rdata := w, rstat := st } ∧ ∀ j, j ≠ i → fabOut y j = fabOut x j

/-- Word a of the bank becomes w: every other word keeps its content, reservations and write-backs of the word go, and
nothing but the places words are held in changes (R196, R203, R205). -/
def Stored (x y : Bank) (a : Nat) (w : PWord) : Prop :=
  (∀ k, bankVal y k = if k = a then w else bankVal x k)
  ∧ y = { x with words := y.words, valid := y.valid, spare := y.spare, buf := y.buf, inBuf := y.inBuf, outs := y.outs,
                 resv := x.resv.filter (fun r => r.word != a), wbs := x.wbs.filter (fun p => p.1 != a) }

/-- Byte j of the new word is the written one where enabled, else the old one (R192). -/
def Merged (old new res : PWord) (be : BitVec 8) : Prop :=
  (∀ j, j < 64 → res.val.getLsbD j = if be.getLsbD (j / 8) then new.val.getLsbD j else old.val.getLsbD j)
  ∧ res.pois = (if be = 0xFF then new.pois else old.pois || new.pois)

/-- What a served access sees beside its own bank's words: the records of an uncorrectable word (R202). -/
def UeLogged (s t : State) (n a : Nat) : Prop :=
  t.st = (faultLog s 0x04 n a).st ∧ t.svc = (faultLog s 0x04 n a).svc
  ∧ t.lg = (if modeCode s ≠ 0 ∧ n / 96 = 1 then { s.lg with stat := setBit s.lg.stat 20 true } else s.lg)
  ∧ t = { s with banks := t.banks, fresh := t.fresh, dbg := { s.dbg with xtp := t.dbg.xtp }, st := t.st, svc := t.svc, lg := t.lg }
  ∧ (∀ m, m ≠ n → bank t m = bank s m)

/-- The number of bits in error. -/
def wrongBits (flip : BitVec 80) : Nat := (bitsOf 80 flip.toNat).length

/-- A word the scrubber visits: of a valid row and outside the region under background test (R210). -/
abbrev ScrubSees (b : Bank) (a : Nat) : Prop := rowValid b a = true ∧ ¬ (bistPhase b ≠ 0 ∧ a / 256 = bistRegion b)

/-- The test steps only while the bank is ON with its clock running. -/
abbrev BankSteps (s : State) (n : Nat) : Prop := bankState s n = 0 ∧ bankClocked s n = true

/-- The requests a bank has accepted and not completed, and the rest. -/
def bankMine (n : Nat) (r : Req) : Bool := r.unit == bankGroupKey n && reqBank r == n

/-- What a bank does with a request from the network whose words read clean, and what it answers (R192, R195, R236). -/
def BankDone (x y : Bank) (r : Req) (ans : Resp) : Prop :=
  let a := r.word0 % 8192
  let i := r.h.init.toNat
  let old := bankVal x a
  ((r.cmd = .rd ∨ r.cmd = .rde) → y = x ∧ ans.kind = .rdr ∧
    ans.data = (List.range (4 * r.h.len)).map (fun j => bankVal x ((r.word0 + j) % 8192)))
  ∧ (r.cmd = .fadd → Stored x y a { val := old.val + r.h.imm, pois := old.pois || r.h.immPois } ∧
      ans.kind = .atr ∧ ans.code = 0 ∧ ans.data.head? = some old)
  ∧ (r.cmd = .swap → Stored x y a { val := r.h.imm, pois := r.h.immPois } ∧ ans.kind = .atr ∧ ans.code = 0 ∧ ans.data.head? = some old)
  ∧ (r.cmd = .rsvrd → (let others := x.resv.filter (fun c => c.req != i)
      y = { x with resv := others.drop (if 4 ≤ others.length then 1 else 0) ++ [{ req := i, word := a }] }) ∧
      ans.kind = .atr ∧ ans.data.head? = some old)
  ∧ (r.cmd = .cwr → ans.kind = .atr ∧ if { req := i, word := a } ∈ x.resv
      then Stored x y a { val := r.h.imm, pois := r.h.immPois } ∧ ans.code = 0 else y = x ∧ ans.code = 1)
  ∧ ((r.cmd = .wri1 ∨ r.cmd = .wri2 ∨ r.cmd = .wri4 ∨ r.cmd = .wri8) → r.a % wriSize r.cmd = 0 → ans.kind = .wra ∧
      ∃ m, Merged old (r.dataWord 0) m (r.be 0) ∧ Stored x y a m)
  ∧ (r.cmd = .wr → r.h.len = 1 → r.h.imm.toNat % 2 ^ 32 = 2 ^ 32 - 1 → ans.kind = .wra ∧
      ∀ k, bankVal y k = if a ≤ k ∧ k < a + 4 then r.data.getD (k - a) zeroWord else bankVal x k)

/-! ### The packet network -/

/-- The network after a request was injected: it is outstanding, and a C0 request closes its slot's gap (R240, R243). -/
def sentNoc (s : State) (r : Req) : Noc :=
  { s.noc with
    outst := s.noc.outst ++ [{ init := r.h.init.toNat, tag := r.h.tag.toNat, cls := r.h.cls, addr := r.a, len := r.h.len, id := r.id }]
    gap := if r.h.cls = 0 then s.noc.gap ++ [initPlace r.h.init.toNat] else s.noc.gap }

/-- An initiator hands a request to its interface: it can send, a port's buffer of the class has room, and an engine's packet
belongs to one of its transfers (R66, R69, R151, R152, R170). -/
abbrev Sends (s : State) (r : Req) : Prop :=
  initSends s r.h.init.toNat = true ∧ rqFull s r = false
  ∧ (0x1000 ≤ r.h.init.toNat ∧ r.h.init.toNat < 0x1F00 → (eng s (r.h.init.toNat - 0x1000)).xfers.any (fun t => xferAsks t r) = true)

/-- The state once it has: the request has its number, and the first transfer of the engine that it belongs to notes the words it asks for. -/
def Noted (s u : State) (r : Req) : Prop :=
  u = { s with noc := { s.noc with seq := s.noc.seq + 1 }, engines := u.engines }
  ∧ (¬ (0x1000 ≤ r.h.init.toNat ∧ r.h.init.toNat < 0x1F00) → u.engines = s.engines)
  ∧ (∀ e pre f post, r.h.init.toNat = 0x1000 + e → e < 3840 → (eng s e).xfers = pre ++ f :: post → f ∉ post →
      (∀ g ∈ pre, xferAsks g r = false) → xferAsks f r = true →
      let first := max (f.addr / 8) r.word0
      (∀ j, j ≠ e → eng u j = eng s j) ∧ eng u e = { eng s e with xfers := pre ++ { f with asked := f.asked ++
        [(s.noc.seq, first, min (f.addr / 8 + f.len) (r.word0 + r.nWords) - first)] } :: post })

/-- Only the byte count of a write's sender, in its router's statistics, may differ (R256). -/
def StatsOnly (s t : State) : Prop := ∀ m, routerOf t m = { routerOf s m with stats := (routerOf t m).stats }

/-- A request that its interface injects (R235, R240, R243), with no packet of its class in its way (R239, R248). -/
abbrev Injected (s : State) (r : Req) (d : Dest) : Prop :=
  r.legal = true ∧ addrDest s r.a = some d
  ∧ ¬ (r.h.cls = 0 ∧ (2 < r.h.len ∨ c0tx s (initPlace r.h.init.toNat) = false)) ∧ ifaceWaits s r = false
abbrev Unhindered (s : State) (r : Req) (d : Dest) : Prop :=
  Injected s r d ∧ nocBehind s r.h.cls (initPlace r.h.init.toNat) d.place true = false

/-- A request that reaches its target: the route is clear, the slot is open, C0 is accepted there, and its domain is awake
(R241, R243, R247, R252, R254, R255). -/
abbrev Arrives (s : State) (r : Req) (d : Dest) : Prop :=
  Unhindered s r d ∧ way s (initPlace r.h.init.toNat / 16) (d.place / 16) = .clear
  ∧ (d.place % 16 = 12 ∨ bitOf (routerOf s (d.place / 16)).portenF (d.place % 16) = true)
  ∧ (r.h.cls = 0 → c0rx s d.place = true) ∧ (∀ n, d.dom = some n → (domOf s n).cur = 0)

/-- What an engine's memories do with a request, words read clean (R108, R110, R111, R153). -/
def EngDone (x y : Engine) (r : Req) (ans : Resp) : Prop :=
  let w0 := r.word0 % 4096
  (r.isRead = true → y = x ∧ ans.kind = .rdr ∧ ans.data = (List.range (4 * r.h.len)).map (fun j => Machine.engWord x (w0 + j)))
  ∧ (r.isWrite = true → ans.kind = .wra ∧ y = { x with dm := y.dm, pm := y.pm, raq := y.raq, ipend := y.ipend } ∧
      (∀ j, j < r.nWords → r.be j ≠ 0 → ∃ m, Merged (Machine.engWord x (w0 + j)) (r.dataWord j) m (r.be j) ∧
        Machine.engWord y (w0 + j) = m) ∧
      (∀ w, (∀ j, j < r.nWords → w = w0 + j → r.be j = 0) → Machine.engWord y w = Machine.engWord x w) ∧
      y.ipend = (if x.st ≠ .reset ∧ ∃ j, j < r.nWords ∧ w0 + j = 2047 ∧ r.be j ≠ 0 then setBit x.ipend 0 true else x.ipend))

/-- What a request whose data are its own (an engine's transfers fill theirs, R152), handed to its interface, leads to short of its
target (R235, R239, R240, R243, R247 to R249, R254, R255). -/
def AskFails (s : State) (r : Req) (t : State) : Prop :=
  let i := r.h.init.toNat
  let answered := fun (d : Dest) (place code : Nat) => t.noc = { sentNoc s r with responses := s.noc.responses ++ [{ { r with slot := d.place }.err code with place := place }] } ∧
    t = { s with noc := t.noc, routers := t.routers } ∧ StatsOnly s t
  let left := fun (d : Dest) => t.noc = { sentNoc s r with transit := s.noc.transit ++ [{ r with slot := d.place }] } ∧
    t = { s with noc := t.noc, routers := t.routers } ∧ StatsOnly s t
  ((r.legal = false ∨ addrDest s r.a = none) → t = respond s [r.refusal 0x0A])
  ∧ (r.legal = true → addrDest s r.a ≠ none → r.h.cls = 0 →
      (2 < r.h.len ∨ c0tx s (initPlace i) = false) → t = respond s [r.refusal 0x0B])
  ∧ (r.legal = true → addrDest s r.a ≠ none →
      ¬ (r.h.cls = 0 ∧ (2 < r.h.len ∨ c0tx s (initPlace i) = false)) → ifaceWaits s r = true →
      t = { s with noc := { s.noc with iface := s.noc.iface ++ [r] } })
  ∧ (∀ d, Injected s r d → xferFill s r = r →
      (nocBehind s r.h.cls (initPlace i) d.place true = true → left d) ∧
      (nocBehind s r.h.cls (initPlace i) d.place true = false →
        (way s (initPlace i / 16) (d.place / 16) = .waits → left d) ∧
        (∀ q, way s (initPlace i / 16) (d.place / 16) = .shut q → answered d (16 * q + 12) 5) ∧
        (way s (initPlace i / 16) (d.place / 16) = .clear →
          (d.place % 16 ≠ 12 → bitOf (routerOf s (d.place / 16)).portenF (d.place % 16) = false → answered d d.place 5) ∧
          ((d.place % 16 = 12 ∨ bitOf (routerOf s (d.place / 16)).portenF (d.place % 16) = true) →
            (r.h.cls = 0 → c0rx s d.place = false → answered d d.place 6) ∧
            (∀ n, r.h.cls ≠ 0 → d.dom = some n → 2 ≤ (domOf s n).cur →
              if (s.noc.held.filter (fun q => q.slot == d.place && q.h.cls == r.h.cls)).length < 4
              then t.noc = { sentNoc s r with held := s.noc.held ++ [{ r with slot := d.place }] } ∧
                (n < 0x440 → (domOf s n).cur = 2 → (domOf t n).cur = 6)
              else left d)))))

/-- What a request does at its target (R68, R69, R104, R110, R192, R195, R236, R238), where no word is in error; `busy` that the
memory port it needs is wanted in every cycle, or that user logic holds TQ_VALID off. -/
def AskServed (s : State) (r : Req) (busy : Bool) (t : State) : Prop :=
  let i := r.h.init.toNat
  ∀ d, Arrives s r d → xferFill s r = r → (∀ j, r.flips.getD j 0 = 0) →
    let q := { r with slot := d.place }
    let answered := fun (code : Nat) => t.noc = { sentNoc s r with responses := s.noc.responses ++ [q.err code] } ∧
      t = { s with noc := t.noc, routers := t.routers } ∧ StatsOnly s t
    let accepts := fun (l : List Req) => t.noc = { sentNoc s r with accepted := l } ∧ t = { s with noc := t.noc, routers := t.routers } ∧ StatsOnly s t
    let replies := fun (ans : Resp) => ans.init = i ∧ ans.tag = r.h.tag.toNat ∧ ans.id = r.id ∧ ans.place = d.place ∧
      t.noc = { sentNoc s r with responses := s.noc.responses ++ [ans] }
    (d.kind = .engine →
      (unitAdmits s (reqEng r) i = false → answered 2) ∧
      (unitAdmits s (reqEng r) i = true → r.isAtomic = true → answered 4) ∧
      (unitAdmits s (reqEng r) i = true → r.isAtomic = false → engRefuses s r = false →
        (busy = true → accepts (s.noc.accepted ++ [{ q with unit := reqEng r }])) ∧
        (busy = false → ∃ ans, EngDone (eng s (reqEng r)) (eng t (reqEng r)) r ans ∧ replies ans ∧
          t = { s with noc := t.noc, engines := t.engines, routers := t.routers, fresh := t.fresh } ∧ StatsOnly s t ∧
          ∀ e, e ≠ reqEng r → eng t e = eng s e)))
    ∧ (d.kind = .bank → (let n := reqBank r
      let c := bankAdmit s r
      (unitOpen s (bankGroupKey n) = false → answered 2) ∧
      (unitOpen s (bankGroupKey n) = true →
        (c ≠ 0 → c ≠ 256 → c ≠ 257 → answered c) ∧
        (c = 257 ∨ c = 0 ∧ busy = true → accepts (s.noc.accepted ++ [{ q with unit := bankGroupKey n }])) ∧
        (c = 0 → busy = false → ∃ ans, BankDone (bank s n) (bank t n) r ans ∧ replies ans ∧
          t = { s with noc := t.noc, banks := t.banks, routers := t.routers, fresh := t.fresh,
                       dbg := { s.dbg with xtp := t.dbg.xtp } } ∧ StatsOnly s t ∧ ∀ m, m ≠ n → bank t m = bank s m))))
    ∧ (∀ k, d.kind = .port k →
      (unitOpen s (6000 + k) = false → answered 2) ∧
      (unitOpen s (6000 + k) = true → r.isAtomic = true → answered 4) ∧
      (unitOpen s (6000 + k) = true → r.isAtomic = false → bitOf (portCfg s (k / 64) (k % 64)) 1 = true →
        (portFull s k r = true → t.noc = { sentNoc s r with transit := s.noc.transit ++ [q] } ∧ t = { s with noc := t.noc, routers := t.routers } ∧ StatsOnly s t) ∧
        (portFull s k r = false → busy = true ∨ portInReset s k = true → accepts (s.noc.accepted ++ [{ q with unit := 6000 + k, buf := true }])) ∧
        (portFull s k r = false → busy = false → portInReset s k = false →
          accepts (s.noc.accepted.map (fun c => if c.unit = 6000 + k then { c with buf := false } else c) ++ [{ q with unit := 6000 + k }]))))

/-- A request as its initiator makes it: nothing where its interface does not take it, else what follows once it has its number. -/
def Asked (s : State) (r : Req) (busy : Bool) (t : State) : Prop :=
  (¬ Sends s r → t = s)
  ∧ (Sends s r → ∃ u, Noted s u r ∧ AskFails u { r with id := s.noc.seq } t ∧ AskServed u { r with id := s.noc.seq } busy t)

/-- The oldest response of its kind for that tag; and one that may move: its port takes it and nothing of its class is before it (R69, R239, R248). -/
abbrev First (s : State) (p : Resp) : Prop :=
  s.noc.responses.find? (fun c => c.init == p.init && c.tag == p.tag && c.kind == p.kind) = some p
abbrev Free (s : State) (p : Resp) (ready : Bool) : Prop :=
  First s p ∧ p.own = false ∧ portRefuses s p ready = false ∧ respBehind s p = false
  ∧ nocBehind s p.travels p.place (initPlace p.init) false = false

/-- A response that may move, its request outstanding, its tag not dead. -/
abbrev Coming (s : State) (p : Resp) (ready : Bool) (o : Outst) : Prop :=
  Free s p ready ∧ s.noc.dead.contains (p.init, p.tag) = false
  ∧ takeFirst (fun (c : Outst) => c.init == p.init && c.id == p.id) s.noc.outst = some (o, s.noc.outst.erase o)

/-- The way of a response, from the place it comes from (R237, R254). -/
def respWay (s : State) (p : Resp) : Way := way s (p.place / 16) (initPlace p.init / 16)

/-- The network with a response taken off its way and its request done. -/
def doneNoc (s : State) (p : Resp) (o : Outst) : Noc :=
  { s.noc with responses := s.noc.responses.erase p, outst := s.noc.outst.erase o }

/-- What a response does: delivered to a running port, to the debug port, to a hub initiator or to an engine's transfer; waiting, or
dropped and counted (R33, R69, R152, R237, R239, R240, R247, R254). -/
def Delivered (s : State) (p : Resp) (ready : Bool) (t : State) : Prop :=
  let gone := { s.noc with responses := s.noc.responses.erase p }
  let dropped := fun (r : Nat) => fld (routerOf t r).link 31 16 = min 65535 (fld (routerOf s r).link 31 16 + 1)
  (∀ o, Coming s p ready o → respWay s p = .clear →
    (∀ k, p.init = 0x2000 + k → k < 2048 → (wrapOf s (6000 + k)).st = .running → unitHeld s (6000 + k) = false →
      t.noc = doneNoc s p o ∧ t = { s with noc := t.noc, ports := t.ports, routers := t.routers } ∧ StatsOnly s t ∧
      (∀ j, j ≠ k → portOf t j = portOf s j) ∧
      portOf t k = if ready = true ∧ portInReset s k = false then { rs := some p, buf := [] }
        else { portOf s k with buf := (portOf s k).buf ++ [p] }) ∧
    (p.init = 0x10 → (wrapOf s 5084).st = .running → unitHeld s 5084 = false →
      (p.kind = .rdr → (p.data.getD (s.dbg.dapAddr / 8 % 4) zeroWord).pois = false) →
      t.noc = doneNoc s p o ∧ t = { s with noc := t.noc, dbg := t.dbg, routers := t.routers } ∧ StatsOnly s t ∧
      t.dbg.dapBusy = false ∧ t.dbg.dapRes = (if p.kind = .err then 1 else 0) ∧
      (p.kind = .err → t.dbg.dapData = BitVec.ofNat 64 (p.code % 256)) ∧
      (p.kind = .rdr → t.dbg.dapData = (p.data.getD (s.dbg.dapAddr / 8 % 4) zeroWord).val)) ∧
    (p.init < 4 → (wrapOf s (5080 + p.init)).st = .running → unitHeld s (5080 + p.init) = false → s.svc.wait = none → p.kind = .rdr →
      let bad := p.data.any (fun d => d.pois)
      t.noc = { doneNoc s p o with hubPois := s.noc.hubPois.filter (· != p.init) ++ (if bad = true then [p.init] else []) } ∧
      t = { s with noc := t.noc, routers := t.routers, st := t.st, svc := t.svc } ∧ StatsOnly s t ∧
      t.st = (if bad = true then (faultLog s 0x04 p.init (p.addr / 8 % 2 ^ 32)).st else s.st)) ∧
    (∀ e f, p.init = 0x1000 + e → e < 3840 → (wrapOf s e).st = .running → unitHeld s e = false → (eng s e).xfers = [f] →
      f.asked.any (fun q => q.1 == o.id) = true → p.kind = .rdr → p.pend = false → f.len ≤ 2048 → 1 ≤ o.len →
      let w0 := o.addr / 32 * 4
      t.noc = doneNoc s p o ∧ t = { s with noc := t.noc, engines := t.engines, routers := t.routers } ∧ StatsOnly s t ∧
      (∀ j, j ≠ e → eng t j = eng s j) ∧
      (let y := eng t e
       y = { eng s e with dm := y.dm, raq := y.raq, xfers := [{ f with got := f.got + ((List.range (4 * o.len)).filter (fun j => xferHit f (w0 + j))).length }] } ∧
       (∀ j, j < 4 * o.len → xferHit f (w0 + j) = true → tget {} y.dm ((f.laddr + (w0 + j - f.addr / 8)) % 2048) =
          { val := (p.data.getD j zeroWord).val, pois := (p.data.getD j zeroWord).pois, pend := match f.early with
              | some v => BitVec.ofNat 4 (2 ^ v)
              | none => 0 }) ∧
       (∀ a, (∀ j, j < 4 * o.len → xferHit f (w0 + j) = true → a ≠ (f.laddr + (w0 + j - f.addr / 8)) % 2048) →
          tget {} y.dm a = tget {} (eng s e).dm a))) ∧
    (0x1000 ≤ p.init → p.init < 0x1F00 → (wrapOf s (p.init - 0x1000)).st = .stopped →
      t.noc = doneNoc s p o ∧ (∀ e, eng t e = eng s e) ∧
      (wrapOf t (p.init - 0x1000)).discarded = (wrapOf s (p.init - 0x1000)).discarded + 1 ∧ dropped (initPlace p.init / 16)))
  ∧ (First s p → p.own = false → (portRefuses s p ready = true ∨ respBehind s p = true ∨
      nocBehind s p.travels p.place (initPlace p.init) false = true ∨ respWay s p = .waits) → t = s)
  ∧ (∀ q, Free s p ready → respWay s p = .shut q → t.noc = gone ∧ dropped q)
  ∧ (Free s p ready → respWay s p = .clear → s.noc.dead.contains (p.init, p.tag) = true → t.noc = gone ∧ dropped (initPlace p.init / 16))
  ∧ (∀ e f, First s p → p.own = true → p.kind = .err → p.pend = false → e < 3840 → p.init = 0x1000 + e →
      (wrapOf s e).st = .running → unitHeld s e = false → (eng s e).xfers = [f] → f.asked.any (fun q => q.1 == p.id) = true →
      let w := if p.len = 0 then p.addr / 8 else p.addr / 32 * 4
      let hits := (List.range (if p.len = 0 then 1 else 4 * p.len)).filter (fun i => xferHit f (w + i))
      t = { s with noc := gone, engines := t.engines, routers := t.routers } ∧ StatsOnly s t ∧
        (∀ j, j ≠ e → eng t j = eng s j) ∧
        eng t e = { eng s e with xfers := [{ f with got := f.got + hits.length, err := true }] })

/-- Only router r changes. -/
def RouterOnly (s t : State) (r : Nat) : Prop := t = { s with routers := t.routers } ∧ ∀ m, m ≠ r → routerOf t m = routerOf s m

/-! ### External memory -/

/-- Controller m alone changes. -/
def McOnly (s t : State) (m : Nat) : Prop :=
  t = { s with mcs := t.mcs } ∧ ∀ k, k ≠ m → mcOf t k = mcOf s k

/-- Guard m alone changes. -/
def GrdOnly (s t : State) (m : Nat) : Prop :=
  t = { s with guards := t.guards } ∧ ∀ k, k ≠ m → grdOf t k = grdOf s k

/-- Nothing waits at controller m. -/
abbrev McIdle (s : State) (m : Nat) : Prop :=
  s.noc.accepted.filter (fun r => r.unit == 5000 + m) = [] ∧ (grdOf s m).pend = [] ∧ (grdOf s m).finds = []

/-- Controller c has issued commands cs in order and is now y: those the retry buffer of 64 has no room for wait, rows opened on the
way, and RTRY shows the buffer (R275, R289, R298). -/
def McIssued (c y : Mc) (cs : List DevCmd) : Prop :=
  y = { c with rows := y.rows, retry := y.retry, todo := y.todo, stat := setFld c.stat 31 24 y.retry.length }
  ∧ y.retry ++ y.todo = c.retry ++ c.todo ++ cs ∧ (y.todo ≠ [] → 64 ≤ y.retry.length)

/-- Commands without the rows they open. -/
def moves (cs : List DevCmd) : List DevCmd := cs.filter (fun d => match d with
  | .act _ _ => false
  | _ => true)

/-- What follows when controller m becomes READY with nothing waiting there: c, with STATE READY. -/
def BecomesReady (s t : State) (m : Nat) (c : Mc) : Prop :=
  mcOf t m = { c with stat := setFld c.stat 63 60 2 }
  ∧ t = { s with mcs := t.mcs, guards := t.guards } ∧ (∀ k, k ≠ m → mcOf t k = mcOf s k) ∧ (∀ k, grdOf t k = grdOf s k)

/-- Controller m enters FAILED: all it holds draws code 0x10, and the fault log takes class 8 (R291). Where none of that is a write,
which R41 would leave partly done, nothing else changes at its guard. -/
def BecomesFailed (s t : State) (m : Nat) (c : Mc) : Prop :=
  mcState (mcOf t m) = 5
  ∧ t.noc = { s.noc with
      accepted := s.noc.accepted.filter (fun r => r.unit != 5000 + m)
      responses := s.noc.responses ++ (s.noc.accepted.filter (fun r => r.unit == 5000 + m)).map (fun r => r.err 0x10)
        ++ (grdOf s m).pend.map (fun p => p.req.err 0x10) }
  ∧ (grdOf t m).pend = []
  ∧ t.st.log.head? = some { us := s.now - s.st.began, cls := 8, unit := m, detail := 0 }
  ∧ t = { s with mcs := t.mcs, guards := t.guards, noc := t.noc, st := t.st, svc := t.svc, fresh := t.fresh }
  ∧ (∀ k, k ≠ m → mcOf t k = mcOf s k ∧ grdOf t k = grdOf s k)
  ∧ (ReadsOnly s (5000 + m) → (∀ p ∈ (grdOf s m).pend, p.req.isRead = true) → t.fresh = s.fresh ∧ grdOf t m = { grdOf s m with pend := [] } ∧
      mcOf t m = { c with stat := setFld c.stat 63 60 5, replay := 0, fails := 0, stopping := false })

/-- Counter MAJOR, MINOR and stored lines of a guard other than those of local line n (R306, R307). -/
def GuardOthers (x y : Guard) (n : Nat) : Prop :=
  (∀ k, k ≠ n → minorOf y k = minorOf x k ∧ tget [] y.lines k = tget [] x.lines k) ∧ ∀ p, majorOf y p = majorOf x p

/-- Local line n of guard y at controller m holds these words, encrypted and tagged under MAJOR maj and MINOR min, with the poison code where
pois (R271, R308 to R310). -/
def LineHolds (y : Guard) (m n : Nat) (maj : Word) (min : Nat) (ws : List Word) (pois : Bool) : Prop :=
  tget [] y.lines n = lineStored (y.key.getD 0) { ctr := maj, min := min, tree := false, m := m, line := n }
    (ws.flatMap (fun w => leBytes 8 w.toNat)) pois

/-- What the read of local line n finds once the bytes o have changed in the devices. -/
def lineSeen (s : State) (m n : Nat) (o : LineErrs) : LineRead := ((gsOf s m).dataHit n o).dataRead n
/-- The guard whose stored line has changed so, and the controller that has served a request (R282). -/
def guardHit (s : State) (m n : Nat) (o : LineErrs) : Guard := ((gsOf s m).dataHit n o).g
def mcServed (c : Mc) (read : Bool) : Mc := { c with dir := read, run := if c.dir = read then c.run + 1 else 1 }

/-- Page and local number of a line address at controller m (R306). -/
def pageAt (s : State) (m la : Nat) : Nat := locPage ((gsOf s m).loc la)
def numAt (s : State) (m la : Nat) : Nat := locNum ((gsOf s m).loc la)
def lineAddr (s : State) (m n : Nat) : Nat := (gsOf s m).dataAddr n

/-- One request waits at a serving guard for one data line, its page's counter block verified and not being re-encrypted. -/
abbrev OneLine (s : State) (m : Nat) (pd : GPend) (la : Nat) : Prop :=
  mcServing s m = true ∧ (grdOf s m).pend = [pd] ∧ reqLines pd.req = [la] ∧ pd.seen = [] ∧ pd.failed = 0 ∧ pd.lost = false
  ∧ pd.reenc = false ∧ cached (grdOf s m) (pageAt s m la) = true ∧ pageDead (grdOf s m) (pageAt s m la) = false
  ∧ (grdOf s m).reenc = [] ∧ (grdOf s m).loose = [] ∧ (grdOf s m).finds = [] ∧ (gsOf s m).asked (dataPlace (numAt s m la)) = true

/-- What the read of one line hands over: its words, each with the line's mark (R310, R311). -/
def LineData (pd : GPend) (la : Nat) (ans : Resp) (ws : List Word) (pois : Bool) : Prop :=
  ans.init = pd.req.h.init.toNat ∧ ans.tag = pd.req.h.tag.toNat ∧ ans.kind = .rdr ∧ ans.pend = pd.early
  ∧ ans.data = (List.range pd.req.nWords).map (fun i => { val := ws.getD (pd.req.word0 - 8 * la + i) 0, pois := pois })

/-- A controller's record of a corrected and of an uncorrectable line (R273, R299, R300). -/
def CeSeen (x y : Mc) (a : Nat) : Prop :=
  fld y.err 63 48 = min 65535 (fld x.err 63 48 + 1) ∧ fld y.erraddr 30 0 = a % 2 ^ 31 ∧ fld y.err 47 0 = fld x.err 47 0
  ∧ fld y.erraddr 63 31 = fld x.erraddr 63 31
def UeSeen (x y : Mc) (a : Nat) : Prop :=
  fld y.err 47 32 = min 65535 (fld x.err 47 32 + 1) ∧ bitOf y.err 15 = true ∧ fld y.erraddr 62 32 = a % 2 ^ 31
  ∧ fld y.err 63 48 = fld x.err 63 48 ∧ fld y.erraddr 30 0 = fld x.erraddr 30 0

/-- The window that governs an address: the highest-numbered enabled one whose range holds it (R322, R334, R335). -/
def Governs (g : Guard) (n a : Nat) : Prop :=
  n < 16 ∧ fld (winGet g n).rights 31 0 ≠ 0 ∧ fld (winGet g n).range 31 0 ≤ a / 65536 ∧ a / 65536 ≤ fld (winGet g n).range 63 32
  ∧ ∀ k, k < 16 → n < k → ¬ (fld (winGet g k).rights 31 0 ≠ 0 ∧ fld (winGet g k).range 31 0 ≤ a / 65536 ∧
      a / 65536 ≤ fld (winGet g k).range 63 32)

/-- A window's grant of a command by class and rights group. -/
def Grants (w : Window) (c grp : Nat) (read : Bool) : Prop :=
  bitOf w.rights (4 * c + (if read then 0 else 1)) = true ∧ (bitOf w.rights (4 * c + 3) = true → bitOf w.rights (32 + grp) = true)

/-- What a guard does with a request of each command that reaches its open controller (R275, R290, R291, R304, R310 to R312, R320 to
R322). -/
def GuardGets (s : State) (r : Req) (t : State) : Prop :=
  let i := r.h.init.toNat
  ∀ m d, Arrives s r d → d.kind = .mem m → unitOpen s (5000 + m) = true → xferFill s r = r →
    let q := { r with slot := d.place }
    let answered := fun (code : Nat) => t.noc = { sentNoc s r with responses := s.noc.responses ++ [q.err code] } ∧
      t = { s with noc := t.noc, routers := t.routers } ∧ StatsOnly s t
    let g := grdOf s m
    let c := initClass i
    let inRegion := dataGroups (memMap s).gb ≤ ((memMap s).locate (m / 2 ^ (memMap s).s) (r.a % 2 ^ (34 + (memMap s).s))).group
    let lowLevel := c = 1 ∧ fld s.dbg.ctl 63 62 ≠ 2
    let loaderArea := c = 2 ∧ basteHolds s r.a = true
    let live := mcState (mcOf s m) ≠ 5 ∧ r.isAtomic = false
    let admitted := live ∧ ¬ inRegion ∧ ¬ lowLevel ∧ (loaderArea ∨ ∃ n, Governs g n r.a ∧ Grants (winGet g n) c (initGroup s i) r.isRead)
    let window := fun (early : Bool) => (early = true ↔ r.cmd = .rde ∧ (c = 4 ∨ c = 5) ∧ bitOf g.ctl 0 = true ∧ ¬ loaderArea ∧
      ∃ n, Governs g n r.a ∧ bitOf (winGet g n).rights (4 * c + 2) = true)
    let at_ := (gsOf s m).loc ((reqLines r).headD 0)
    (mcState (mcOf s m) = 5 → answered 0x10)
    ∧ (mcState (mcOf s m) ≠ 5 → r.isAtomic = true → answered 4)
    ∧ (live → inRegion → answered 0x309)
    ∧ (live → ¬ inRegion → lowLevel → answered 0x409)
    ∧ (live → ¬ inRegion → ¬ lowLevel → ¬ loaderArea → (∀ n, ¬ Governs g n r.a) → answered 0x109)
    ∧ (∀ n, live → ¬ inRegion → ¬ lowLevel → ¬ loaderArea → Governs g n r.a → ¬ Grants (winGet g n) c (initGroup s i) r.isRead →
        answered 0x209)
    ∧ (admitted → mcServing s m = false → ∃ early, window early ∧
        t.noc = { sentNoc s r with accepted := s.noc.accepted ++
          [{ q with unit := 5000 + m, cmd := if r.cmd == .rde && !early then .rd else r.cmd }] } ∧
        t = { s with noc := t.noc, routers := t.routers } ∧ StatsOnly s t)
    ∧ (admitted → mcServing s m = true → r.isRead = true → g.pend = [] → g.finds = [] →
        t.noc = sentNoc s r ∧ (∃ early, window early ∧ (grdOf t m).pend = [{ req := q, early := early, since := s.now }]) ∧
        (grdOf t m).minors = g.minors ∧ (grdOf t m).lines = g.lines ∧ (grdOf t m).cache = g.cache ∧
        ∃ cs, McIssued { mcOf s m with stat := setBit (mcOf s m).stat 59 false } (mcOf t m) cs ∧
          ∀ b, b ∈ groupBlocks at_.group ((reqLines r).map (· % 8)) → .read at_.bank b ∈ cs)
    ∧ (∀ la, admitted → mcServing s m = true → r.isWrite = true → g.pend = [] → g.finds = [] → reqLines r = [la] → lineFull r la = true →
        cached g (pageAt s m la) = true → pageDead g (pageAt s m la) = false → g.reenc = [] →
        ((g.cache.filter (fun e => e.1 != pageAt s m la)).filter (fun e => e.1 % 1024 == pageAt s m la % 1024)).length < 16 → minorOf g (numAt s m la) ≠ 126 →
        t.noc = { sentNoc s r with responses := s.noc.responses ++ [q.ack] } ∧ (let y := grdOf t m
          let n := numAt s m la
          let min := if minorOf g n = 127 then 0 else minorOf g n + 1
          minorOf y n = min ∧ LineHolds y m n (majorOf g (pageAt s m la)) min ((List.range 8).map (fun j => (r.dataWord (8 * la + j - r.word0)).val))
            ((List.range 8).any (fun j => (r.dataWord (8 * la + j - r.word0)).pois)) ∧
          GuardOthers g y n ∧ (pageAt s m la, true) ∈ y.cache ∧ y.pend = [] ∧
          ∃ cs, McIssued { mcServed (mcOf s m) false with stat := setBit (mcOf s m).stat 59 false, wbs := (mcOf s m).wbs.filter (fun p => p.1 != n) } (mcOf t m) cs ∧
            ∀ b, b ∈ groupBlocks at_.group (touchedLines r) → .write at_.bank b ((gsOf t m).block at_.bank b) ∈ cs))

def GuardAsked (s : State) (r : Req) (t : State) : Prop :=
  Sends s r → ∃ u, Noted s u r ∧ GuardGets u { r with id := s.noc.seq } t

/-! ### Serial lanes and native links -/

/-- Only links and their lanes' registers change, link l alone among the links. -/
def LinkOnly (s t : State) (l : Nat) : Prop :=
  t = { s with lanes := t.lanes, lks := t.lks, quads := t.quads } ∧ ∀ k, k ≠ l → lkOf t k = lkOf s k

/-- Link l becomes y; no register of a lane changes. -/
def LinkIs (s t : State) (l : Nat) (y : Link) : Prop :=
  t = { s with lks := t.lks } ∧ (∀ k, k ≠ l → lkOf t k = lkOf s k) ∧ lkOf t l = y

/-- A lane's STAT field. -/
def lnF (s : State) (k hi lo : Nat) : Nat := fld (laneOf s k).stat hi lo

/-- Lanes' registers other than their STAT words keep their values. -/
def LanesKeep (s t : State) : Prop := ∀ k, laneOf t k = { laneOf s k with stat := (laneOf t k).stat }

/-- A link leaves for DETECT, TRAIN, FAILED or OFF (R328, R354, R355): its lanes lose lock, its session ends; the replay buffer,
what was delivered and what waits stay, and RESUME keeps what the session delivered. -/
def LinkLeft (s t : State) (l st : Nat) : Prop :=
  LinkOnly s t l ∧ LanesKeep s t ∧ lnState t l = st ∧ lnF t l 47 32 = 0 ∧ lnF t l 31 16 = lnF s l 31 16
  ∧ (∀ k ∈ lnLanes s l, lnF t k 54 54 = 0 ∧ lnF t k 52 52 = 0 ∧ lnF t k 59 55 = lnF s k 59 55)
  ∧ (∀ k, k ∉ lnLanes s l → k ≠ l → laneOf t k = laneOf s k)
  ∧ (let x := lkOf s l
     let y := lkOf t l
     y.keys = none ∧ y.skip = none ∧ y.opened = false ∧ y.rxNew = none ∧ y.replay = x.replay ∧ y.got = x.got ∧ y.waiting = x.waiting
     ∧ y.out = x.out ∧ y.resume = if lnState s l = 5 ∧ lnNative s l = true then some x.rxSeq else x.resume)

/-- The link's frames: whether one may arrive now. -/
abbrev Opened (s : State) (l : Nat) : Prop :=
  lkUp s l = true ∧ (lkOf s l).opened = true ∧ (lkOf s l).rxNew = none ∧ (lkOf s l).rxSleep = false

/-- The capability exchange begins (R326, R355, R356): a record of 38 bytes with this end's lanes, a fresh nonce and RESUME is sent
in three parts of round 1. -/
def CapBegins (x y : Link) : Prop :=
  y = { x with round := 1, parts := [], theirs := [], mine := y.mine, out := y.out, tries := y.tries, resume := y.resume, txMask := y.txMask }
  ∧ y.mine.length = 38 ∧ y.mine.head? = some 1 ∧ capMask y.mine = y.txMask % 65536 ∧ capResume y.mine = (y.resume.getD (2 ^ 64 - 1)) % 2 ^ 64
  ∧ (∃ b0 b1 b2, y.out = x.out ++ [{ kind := ctlCAP, val := 16, bytes := b0 }, { kind := ctlCAP, val := 17, bytes := b1 },
      { kind := ctlCAP, val := 18, bytes := b2 }] ∧ (b0 ++ b1 ++ b2).take 38 = y.mine)

/-- The record the partner's round k gives once part p brings the bytes b. -/
def capHears (x : Link) (k p : Nat) (b : List Byte) : List Byte :=
  ((List.range 3).flatMap (fun i => if i = p then b else tget [] x.parts (16 * k + i))).take 38

/-- Parts of round k are here but for p, which is not. -/
abbrev CapLacks (x : Link) (k p : Nat) : Prop := p < 3 ∧ ∀ i, i < 3 → i ≠ p → tget [] x.parts (16 * k + i) ≠ []

/-- The lanes of mask m that found a partner with an ACTIVE transmitter (R355). -/
def Probed (s : State) (l : Nat) (found : BitVec 16) (on : Nat) : Prop :=
  ∀ i, nbit on i = (decide (i < lnWidth s l) && found.getLsbD i && lnF s (l + i) 59 58 == 2)

/-- A queue that may run. -/
abbrev QueueRuns (s : State) (l : Nat) : Prop :=
  dqRuns s l = true ∧ lnNative s l = true ∧ (laneOf s l).stalled = false

/-- The blocks of a native link, each given what its codeword showed. -/
inductive Block (l : LaneId) : (CwSeen → Instr) → Prop where
  | frame (f : NFrame) : Block l (fun cw => .nativeFrameReceive l f cw)
  | idle : Block l (fun cw => .ctlIdle l cw)
  | sof : Block l (fun cw => .ctlSof l cw)
  | ack (n : Nat) : Block l (fun cw => .ctlAck l n cw)
  | nak (n : Nat) : Block l (fun cw => .ctlNak l n cw)
  | am (i : Fin 16) (m : BitVec 16) : Block l (fun cw => .ctlAm l i m cw)
  | restripe (m : BitVec 16) (c : Bool) : Block l (fun cw => .ctlRestripe l m c cw)
  | cap (n p : Fin 16) (b : List Byte) : Block l (fun cw => .ctlCap l n p b cw)
  | abort : Block l (fun cw => .ctlAbort l cw)
  | sleep : Block l (fun cw => .ctlSleep l cw)

/-! ### The configuration loader and the panels -/

/-- A field of CFG_STAT (R409). -/
def ldF (s : State) (hi lo : Nat) : Nat := fld s.ld.stat hi lo

/-- The address of line n at controller m. -/
def lineByte (s : State) (m n : Nat) : Nat := (memMap s).address m (n / 8 % 128) (n / 8 / 128) (n % 8)

/-- The basting area's banks lose their contents where it was on-chip, its lines where it was in external memory, which leaves them
undefined; every other bank and line keeps everything (R394). -/
def BasteGone (s t : State) : Prop :=
  (∀ n, bank t n = if s.ld.area = 1 ∧ 640 ≤ n ∧ n < 768 then bankClear (bank s n) else bank s n)
  ∧ (s.ld.area ≠ 2 → t.guards = s.guards ∧ t.fresh = s.fresh)
  ∧ ∀ m, grdOf t m = { grdOf s m with lines := (grdOf t m).lines, loose := (grdOf t m).loose } ∧
      ∀ n, ¬ (s.ld.area = 2 ∧ m ∈ servers s s.ld.base (2 ^ 28) ∧ s.ld.base ≤ lineByte s m n ∧ lineByte s m n < s.ld.base + 2 ^ 28) →
        tget [] (grdOf t m).lines n = tget [] (grdOf s m).lines n

/-- A load ends in RECEIVE or VERIFY with an ERR code and nothing else has changed (R394, R406). -/
def LoadEnds (s t : State) (code : Nat) : Prop :=
  t = { s with ld := t.ld, banks := t.banks, guards := t.guards, fresh := t.fresh } ∧ BasteGone s t ∧ ldState t = 0 ∧ ldF t 47 40 = code ∧ ldPhase t = ldPhase s
  ∧ ldF t 55 52 = ldF s 55 52 ∧ ldF t 39 38 = ldF s 39 38 ∧ t.ld.ctl = s.ld.ctl ∧ t.ld.baste = s.ld.baste ∧ t.ld.pnlRec = s.ld.pnlRec
  ∧ t.ld.rx = [] ∧ t.ld.body = [] ∧ t.ld.records = [] ∧ t.ld.waitMem = false

/-- No frame of panel p holds anything but the blank frame (R389). -/
def FramesBlank (s : State) (p : Nat) : Prop := ∀ k, k / 2576 = p → tget [] s.frames k = []

/-- A load ends in COMMIT (R406): the panels it names are blank, their banks the hub's; frames of others stay; nothing of its REG
and SECRET records is applied. -/
def CommitEnds (s t : State) (code : Nat) : Prop :=
  ldState t = 0 ∧ ldF t 47 40 = code ∧ ldPhase t = ldPhase s ∧ t.ld.regs = [] ∧ t.ld.secrets = [] ∧ t.ld.records = []
  ∧ t.sec = s.sec ∧ t.clk.refs = s.clk.refs ∧ t.ld.baste = s.ld.baste ∧ t.ld.pnlRec = s.ld.pnlRec
  ∧ (∀ p ∈ ldPanels s, panelState t p = 0 ∧ (panelOf t p).iso = 0 ∧ FramesBlank t p ∧ (panelOf t p).sr = false
      ∧ (panelOf t p).out = false ∧ (panelOf t p).we = false ∧ bitOf (panelOf t p).stat 59 = false)
  ∧ (∀ n, n / 96 ∈ ldPanels s → (bank t n).own = {} ∧ (bank t n).busy = false)
  ∧ (∀ k, k / 2576 ∉ ldPanels s → tget [] t.frames k = tget [] s.frames k) ∧ (∀ p, p ∉ ldPanels s → panelOf t p = panelOf s p)

/-- RECEIVE has begun from a source, nothing having come yet (R391, R408). -/
def Receiving (x y : Loader) (src : Nat) : Prop :=
  fld y.stat 63 60 = 1 ∧ fld y.stat 55 52 = src ∧ fld y.stat 47 40 = 0 ∧ fld y.stat 37 36 = 0 ∧ fld y.stat 35 32 = 0
  ∧ fld y.stat 59 56 = fld x.stat 59 56 ∧ fld y.stat 51 48 = fld x.stat 51 48 ∧ fld y.stat 38 38 = fld x.stat 38 38
  ∧ fld y.stat 31 0 = fld x.stat 31 0 ∧ y.src = src ∧ y.prog = 0 ∧ y.rx = [] ∧ y.checked = false ∧ y.waitMem = false
  ∧ y.baste = x.baste ∧ y.pnlRec = x.pnlRec ∧ y.dir = x.dir ∧ y.recs = x.recs

/-- Bytes of a load's own source are taken now (R376, R398). -/
abbrev Takes (s : State) (src : Nat) : Prop :=
  ldState s = 1 ∧ src = s.ld.src ∧ s.ld.waitMem = false ∧ s.ld.recs = [] ∧ (src = 0 → s.ld.cold = 1 → s.ld.dir ≠ [])

/-- The first record waiting in COMMIT, where the panels are isolated and no recovery runs (R398, R415). -/
abbrev Waits (s : State) (ty : Nat) (r : SRec) (rest : List Word) : Prop :=
  ldState s = 3 ∧ s.ld.isolated = true ∧ s.ld.recs = [] ∧ recHead s.ld.records = some (r, rest) ∧ r.rtype = ty

/-- The loader's progress after a record (R410). -/
def stbPast (s : State) (r : SRec) : Word := satFld s.ld.prog 31 0 (8 * (r.len + 1))

/-- The start-up step in slot k (0 to 2) is done and the next slot is current (R401, R402). -/
def SlotPast (s t : State) (code : Nat) : Prop :=
  t.ld.slot = s.ld.slot + 1 ∧ fld t.ld.stat (32 + code) (32 + code) = 1 ∧ (ldState t = 4 ∨ ldState t = 5)
  ∧ (ldState t = 5 ↔ slotWait t ≠ 0) ∧ (t.ld.waited = true ↔ slotWait t = 0) ∧ t.ld.trailer = s.ld.trailer
  ∧ ldPhase t = ldPhase s ∧ ldF t 31 0 = ldF s 31 0 ∧ ldF t 47 40 = ldF s 47 40

/-! ### Darners and recoveries -/

/-- The Darner of panel p's die. -/
def drnOf (s : State) (p : Nat) : Darner := darnerOf s (p / 8)

/-- A frame of panel p at (col, row) is checked: its Darner scans and the panel is one it scans (R414, R425). -/
abbrev Checks (s : State) (p col row : Nat) : Prop :=
  fld (drnOf s p).stat 63 60 = 2 ∧ scanned s p = true ∧ (144 ≤ col → row = 0)

/-- The records of a frame with an error (R424, R438, R440, R444). -/
def FrameNoted (s t : State) (p col row word cls : Nat) (ue : Bool) : Prop :=
  t.frames = s.frames ∧ (drnOf t p).log = drnLog ue p col row word ∧ (drnOf t p).ctl = (drnOf s p).ctl ∧ (drnOf t p).stat = (drnOf s p).stat
  ∧ (∀ d, d ≠ p / 8 → darnerOf t d = darnerOf s d)
  ∧ fld (drnOf t p).err 63 48 = (if ue then fld (drnOf s p).err 63 48 else min 65535 (fld (drnOf s p).err 63 48 + 1))
  ∧ fld (drnOf t p).err 47 40 = (if ue then min 255 (fld (drnOf s p).err 47 40 + 1) else fld (drnOf s p).err 47 40)
  ∧ fld (panelOf t p).stat 31 16 = (if ue then fld (panelOf s p).stat 31 16 else min 65535 (fld (panelOf s p).stat 31 16 + 1))
  ∧ fld (panelOf t p).stat 15 8 = (if ue then min 255 (fld (panelOf s p).stat 15 8 + 1) else fld (panelOf s p).stat 15 8)
  ∧ (∃ e ∈ t.st.log, e = { us := s.now - s.st.began, cls := cls, unit := p, detail := fld (drnLog ue p col row word) 63 32 })

/-! ### The legacy window -/

/-- A field of the legacy status register (R467). -/
def lgF (s : State) (hi lo : Nat) : Nat := fld s.lg.stat hi lo

/-- A refusal ends the legacy load (R460, R463): the pins go low, REASON and FAULT tell, nothing else changes. -/
def LegacyRefused (s t : State) (reason err : Nat) : Prop :=
  t = { s with lg := t.lg, ld := t.ld, banks := t.banks, pins := t.pins, guards := t.guards, fresh := t.fresh } ∧ BasteGone s t ∧ ldState t = 0 ∧ ldF t 47 40 = err
  ∧ ldPhase t = ldPhase s ∧ lgF t 19 16 = reason ∧ lgF t 12 12 = 1 ∧ lgF t 5 4 = 0 ∧ lgF t 3 0 = 6 ∧ t.pins.cfgDone = false

/-- A block is taken: the receiver is receiving, LG_INIT_N stays high, RXB counts its bytes (R410, R457, R467). -/
def BlockTaken (s t : State) (n : Nat) : Prop :=
  t = { s with lg := t.lg, ld := { s.ld with prog := t.ld.prog } } ∧ lgF t 3 0 = 2 ∧ lgF t 10 4 = lgF s 10 4 ∧ lgF t 31 12 = lgF s 31 12
  ∧ t.lg.bytes = s.lg.bytes + 3 + n ∧ fld t.ld.prog 63 32 = s.lg.bytes + 3 + n ∧ t.lg.finished = false

/-- The receiver may take a block of n bytes (R457, R460, R468). -/
abbrev MayTake (s : State) (n : Nat) : Prop := lgOpen s = true ∧ secState s ≠ 2 ∧ s.lg.bytes + 3 + n ≤ 8388608 ∧ s.ld.cold = 0

/-- A byte as the pins and TDI bring it, the most significant bit first (R461). -/
def msbFirst (b : Byte) : List Bool := (List.range 8).map (fun i => b.getLsbD (7 - i))

/-- The TAP instruction is in force with what its data register captures; nothing else changes. -/
def TapHas (s t : State) (code : Nat) (dr : List Word) : Prop := t = { s with lg := { s.lg with ir := code, dr := dr } }

/-! ### Clocks and power -/

/-- A field of a PLL's CLK_PLLSTAT (R508). -/
def pllF (s : State) (i hi lo : Nat) : Nat := fld (pllOf s i).stat hi lo

/-- The reference a PLL is on, and the other (R482). -/
def pllUses (p : Pll) : Nat := if pllOn1 p then pllRef1 p else pllRef0 p
def pllOther (p : Pll) : Nat := if pllOn1 p then pllRef0 p else pllRef1 p

/-- PLL i alone changes among the clocks, with LOW and the target of its die (R491, R492). -/
def PllOnly (s t : State) (i : Nat) : Prop :=
  t = { s with clk := { s.clk with plls := t.clk.plls }, pwr := { s.pwr with opps := t.pwr.opps } } ∧ (∀ j, j ≠ i → pllOf t j = pllOf s j)
  ∧ oppLOW (oppOf t (i / 10)) = lowPoint t (i / 10) ∧ ∀ d, d ≠ i / 10 → oppOf t d = oppOf s d

/-- Nothing but the sequencer of die d changes. -/
def OppOnly (s t : State) (d : Nat) : Prop :=
  t = { s with pwr := { s.pwr with opps := t.pwr.opps } } ∧ ∀ k, k ≠ d → oppOf t k = oppOf s k

/-- What a finished frequency slew of die d leaves as it was; FVCO of its locked scaled PLLs follows the point (R484). -/
def SlewOnly (s t : State) (d : Nat) : Prop :=
  t = { s with pwr := { s.pwr with opps := t.pwr.opps }, clk := { s.clk with plls := t.clk.plls } }
  ∧ (∀ k, k ≠ d → oppOf t k = oppOf s k)
  ∧ ∀ i, pllOf t i =
      if i / 10 = d ∧ i % 10 < 8 ∧ bitOf (pllOf s i).cfg 62 = true ∧ pllLocked (pllOf s i) = true then
        { pllOf s i with stat := setFld (pllOf s i).stat 11 0 (fvcoMhz t i (pllOf s i) (pllOn1 (pllOf s i))) }
      else pllOf s i

/-- The sequencer's target is what R492 gives, its step and its command as they were. -/
def TargetKept (x y : Opp) : Prop := y.step = x.step ∧ y.goal = x.goal ∧ oppCUR y = oppCUR x ∧ oppVCUR y = oppVCUR x ∧ y.gov = x.gov

/-- A step is complete and nothing is left to do: the points are at the target (R496). -/
abbrev AtTarget (s : State) (d goal : Nat) : Prop := oppFrozen s = false ∧ oppTarget s d = goal

/-- Nothing but domain n's entry changes. -/
def DomOnly (s t : State) (n : Nat) : Prop :=
  t = { s with pwr := { s.pwr with doms := t.pwr.doms } } ∧ ∀ k, k ≠ n → domOf t k = domOf s k

/-- Domain n may drop (R499). -/
abbrev MayDrop (s : State) (n : Nat) : Prop :=
  domValid n = true ∧ (domOf s n).votes = 0 ∧ hwVote s n = false ∧ (domOf s n).cur = 0 ∧ (0x480 ≤ n → dieQuiet s (n - 0x480) = true)

/-! ### Resets and bring-up -/

/-- A source asserts with a reach: it begins an episode or joins the one in effect (R523, R525, R531). -/
def EpisodeTakes (x y : Rst) (code reach : Nat) : Prop :=
  y.active = true ∧ y.asserted = x.asserted.filter (fun a => a.1 != code) ++ [(code, reach)]
  ∧ y.covered = (if x.active then x.covered else []) ++ [(code, reach)]
  ∧ y.seen = (if x.active then x.seen ||| 2 ^ (code - 1) else 2 ^ (code - 1)) ∧ y.eff = (if x.active then max x.eff reach else reach)
  ∧ y.driving = (x.driving || decide (4 ≤ reach)) ∧ y.pinHigh = (x.pinHigh && !decide (4 ≤ reach)) ∧ (reach ≠ 3 → y.stretched = false)

/-- The HUB episodes of the last second (R524). -/
def hubRecent (s : State) : List Nat := s.rst.hubTimes.filter (fun u => decide (s.now < u + 1000000))

/-- A HUB reset (R530, R538, R543): sessions close, the controller is away, a fuse program and a repair commit stop; everything else
runs on. -/
def HubAway (s t : State) (code : Nat) : Prop :=
  EpisodeTakes s.rst t.rst code 3 ∧ t.rst.cause = s.rst.cause ∧ t.rst.state = s.rst.state ∧ t.rst.hubLoading = true ∧ t.rst.narrow = s.rst.narrow
  ∧ t.rst.urgent = (s.rst.urgent || decide (stage s = 22)) ∧ t.svc.slots = [] ∧ t.svc.queue = [] ∧ t.svc.pubs = s.svc.pubs
  ∧ t = { s with svc := t.svc, sec := { s.sec with keyin := [0, 0, 0, 0], fusstat := setBit s.sec.fusstat 63 false },
                 st := { s.st with todo := [], commit := setBit s.st.commit 62 false }, rst := t.rst }

/-- No session sends a stream, and no fuse word is being programmed. -/
abbrev HubQuiet (s : State) : Prop := s.svc.slots.any (fun p => p.2.streams) = false ∧ s.sec.blow = none

/-- A WARM reset (R518, R529): user state goes, configuration and everything WARM does not cover stay. -/
def WarmGone (s t : State) (code : Nat) : Prop :=
  EpisodeTakes s.rst t.rst code 4 ∧ t.rst.cause = s.rst.cause ∧ t.rst.state = s.rst.state ∧ t.rst.narrow = s.rst.narrow.filter narrowOwn
  ∧ t.frames = s.frames ∧ t.lanes = s.lanes ∧ t.lks = s.lks ∧ t.mcs = s.mcs ∧ t.guards = s.guards ∧ t.clk = s.clk ∧ t.pwr = s.pwr ∧ t.ld = s.ld
  ∧ t.darners = s.darners ∧ t.routers = s.routers ∧ t.sec = { s.sec with keyin := [0, 0, 0, 0] } ∧ t.svc.slots = s.svc.slots
  ∧ (∀ p, panelOf t p = if panelState s p = 1 then { panelOf s p with sr := false, we := false, out := false } else panelOf s p)
  ∧ (∀ e, (eng t e).st = .reset ∧ (eng t e).lastrst = 0) ∧ (AllReads s → ∀ e, (eng t e).pm = (eng s e).pm)
  ∧ (∀ c, nbit (cellCtl s c) 10 = true → tget {} t.cells c = {}) ∧ t.ports = [] ∧ ∀ r, (rclkGet t r).rst = true ∧ (rclkGet t r).gated = false

/-- A COLD reset (R518): everything returns to its reset value but the straps, the cause record, the fuses, BBRAM, SEC_ALMSTAT and
what is outside. -/
def ColdGone (s t : State) (code : Nat) : Prop :=
  EpisodeTakes s.rst t.rst code 5 ∧ t.rst.cause = s.rst.cause ∧ t.rst.state = s.rst.state &&& (fldMask 57 52 ||| fldMask 51 50)
  ∧ t.rst.hubLoading = true ∧ t.rst.narrow = [] ∧ t.rst.shdnAck = false ∧ t.rst.urgent = false
  ∧ t = { ({} : State) with pending := s.pending, now := s.now, fresh := s.fresh, rst := t.rst, sec := t.sec, svc := t.svc, pins := t.pins,
                            dbg := { ({} : Dbg) with ir := s.dbg.ir }, st := { ({} : Stest) with began := s.now } }
  ∧ t.sec.fuses = s.sec.fuses ∧ t.sec.commit = s.sec.commit ∧ t.sec.bbram = s.sec.bbram ∧ t.sec.almstat = s.sec.almstat ∧ t.sec.zscope = s.sec.zscope
  ∧ t.sec.memKey = none ∧ t.svc.slots = [] ∧ t.svc.node = s.svc.node ∧ t.svc.phys = s.svc.phys
  ∧ t.svc.outbox = s.svc.outbox.filter (fun m => m.path != 2) ∧ t.pins.cfgDone = false ∧ t.pins.modesel = s.pins.modesel

/-- A POWER-ON reset also clears the straps, the cause record and SEC_ALMSTAT (R518, R531, R566). -/
def PowerGone (s t : State) (code : Nat) : Prop :=
  EpisodeTakes { s.rst with hubTimes := [] } t.rst code 6 ∧ t.rst.cause = 0 ∧ t.rst.state = 0 ∧ t.rst.narrow = []
  ∧ t = { ({} : State) with pending := s.pending, now := s.now, fresh := s.fresh, rst := t.rst, sec := t.sec,
                            svc := { ({} : Svc) with outbox := s.svc.outbox.filter (fun m => m.path != 2) },
                            dbg := { ({} : Dbg) with ir := s.dbg.ir }, st := { ({} : Stest) with began := s.now } }
  ∧ t.sec.fuses = s.sec.fuses ∧ t.sec.commit = s.sec.commit ∧ t.sec.bbram = s.sec.bbram ∧ t.sec.almstat = 0 ∧ t.sec.zscope = 0

/-- The straps a MODESEL resistance and PUDSEL give (R533, R534): MODE, MSEL, MSBAD, PUD in bits 57:50. -/
def Straps (w : Word) (code : Option Nat) (pud : Bool) : Prop :=
  fld w 50 50 = pud.toNat ∧ (match code with
    | none => fld w 57 51 = 1
    | some c => fld w 51 51 = 0 ∧ fld w 55 52 = c ∧ fld w 57 56 = if c < 5 then 0 else if c < 9 then 2 else 1)

/-- Start-up may leave stage n. -/
abbrev AtStage (s : State) (n : Nat) : Prop := stage s = n ∧ stageOpen s = true

/-- Start-up stops at a stage (R540). -/
def StopsAt (s t : State) (n : Nat) : Prop :=
  stage t = n ∧ bitOf t.rst.state 58 = true ∧ t = { s with rst := { s.rst with state := t.rst.state }, svc := t.svc }
  ∧ fld t.rst.state 57 48 = fld s.rst.state 57 48 ∧ fld t.rst.state 41 0 = fld s.rst.state 41 0

/-! ### Security -/

/-- An alarm of code c is recorded and answered with its level's response (R562 to R564). -/
def Alarmed (s t : State) (c : Nat) : Prop :=
  let resp := if c ∈ [1, 2, 3, 7, 8, 9, 10, 11] then max (fld s.sec.almcfg 3 2) (fld (fuseWord s 0) 17 16) else min 2 (fld s.sec.almcfg 1 0)
  fld t.sec.almstat 63 48 = min 65535 (fld s.sec.almstat 63 48 + 1) ∧ fld t.sec.almstat 47 40 = c ∧ fld t.sec.almstat 39 38 = resp
  ∧ (∀ b, b < 38 → bitOf t.sec.almstat b = (bitOf s.sec.almstat b || b == c - 1))
  ∧ (resp ≤ 2 → t = { s with sec := { s.sec with almstat := t.sec.almstat, state := t.sec.state }, svc := t.svc } ∧ (resp = 0 → t.svc = s.svc) ∧
      t.sec.state = (if resp = 2 then setBit s.sec.state 59 true else s.sec.state))
  ∧ (resp = 3 → EpisodeTakes s.rst t.rst 4 5 ∧ t.sec.zscope = s.sec.zscope ||| 2 ∧ bitOf t.sec.state 50 = true ∧ bitOf t.sec.bbr 56 = true ∧
      bitOf (tget 0 t.sec.bbram 5) 1 = true)

/-- Only BBRAM, what SEC_STATE shows of it, SEC_BBR and the key input words, which clear, may differ (R567, R568, R571). -/
def SlotOnly (s t : State) : Prop :=
  t = { s with sec := { s.sec with bbram := t.sec.bbram, state := t.sec.state, bbr := t.sec.bbr, keyin := [0, 0, 0, 0] } }

/-- The security state, the lock and the source's bit of SEC_STATE stand (R568). -/
def StateStands (s t : State) : Prop :=
  fld t.sec.state 63 62 = fld s.sec.state 63 62 ∧ fld t.sec.state 59 58 = fld s.sec.state 59 58 ∧ fld t.sec.state 51 0 = fld s.sec.state 51 0

/-- The key bits of SEC_STATE follow the fuses (R555, R568). -/
def KeysShown (t : State) : Prop :=
  (bitOf t.sec.state 57 = true ↔ ∀ n, 3 ≤ n → n ≤ 6 → tget false t.sec.commit n = true)
  ∧ (bitOf t.sec.state 56 = true ↔ ∀ n, 7 ≤ n → n ≤ 12 → tget false t.sec.commit n = true)
  ∧ (bitOf t.sec.state 55 = true ↔ ∀ n, 13 ≤ n → n ≤ 16 → tget false t.sec.commit n = true)
  ∧ (bitOf t.sec.state 54 = true ↔ ∀ n, 17 ≤ n → n ≤ 20 → tget false t.sec.commit n = true)

/-- What SEC_STATE shows of the slots of the BBRAM: a key that was present stays so while its V is set (R554, R568). -/
def SlotsShown (s t : State) : Prop :=
  bitOf t.sec.state 53 = (bitOf s.sec.state 53 && bitOf (tget 0 t.sec.bbram 5) 0)
  ∧ bitOf t.sec.state 52 = (bitOf s.sec.state 52 && bitOf (tget 0 t.sec.bbram 9) 0)

/-- R551 or R552 forbids the program of a user fuse word. -/
abbrev FuseForbidden (s : State) (n : Nat) : Prop :=
  secState s = 2 ∨ n = 1 ∧ bitOf s.sec.state 56 = false
  ∨ n = 2 ∧ (tget false s.sec.commit 1 = false ∨ bitOf s.sec.state (if bitOf s.sec.state 58 then 53 else 57) = false)

/-- A program request is refused for a reason (R557, R572). -/
def FuseRefused (s t : State) (why : Nat) : Prop :=
  bitOf t.sec.fusstat 62 = true ∧ fld t.sec.fusstat 61 59 = why ∧ bitOf t.sec.fusstat 63 = bitOf s.sec.fusstat 63
  ∧ fld t.sec.fusstat 58 0 = fld s.sec.fusstat 58 0
  ∧ t = { s with sec := { s.sec with fusctl := s.sec.fusctl &&& 0xFF, fusstat := t.sec.fusstat } }

/-- The repair word a commit programs next: the lowest neither committed nor holding data (R623). -/
abbrev RepairFree (s : State) (k : Nat) : Prop :=
  32 ≤ k ∧ k < 64 ∧ tget false s.sec.commit k = false ∧ tget 0 s.sec.fuses k = 0
  ∧ ∀ j, j < k → 32 ≤ j → tget false s.sec.commit j = true ∨ tget 0 s.sec.fuses j ≠ 0

/-! ### The debug port -/

/-- The TAP's instruction and what its data register captured (R575); nothing else changes. -/
def TapShows (s t : State) (code : Nat) (dr : List Word) : Prop := t = { s with dbg := { s.dbg with ir := code, tdo := dr } }

/-- Words that hold the boundary register, cell i in bit i (R577, R591). -/
def Boundary (s : State) (n : Nat) (ws : List Word) : Prop :=
  ∀ i, i < n → bitOf (ws.getD (i / 64) 0) (i % 64) = tget false s.pins.boundary i

/-- The access level becomes n, the request being decided (R579). -/
def LevelIs (s t : State) (n : Nat) : Prop :=
  fld t.dbg.ctl 63 62 = n ∧ fld t.dbg.ctl 61 0 = fld s.dbg.ctl 61 0 ∧ t = { s with dbg := { s.dbg with ctl := t.dbg.ctl, req := 0 } }

/-- The debug zeroisation begins; the level stands until it is done (R566, R579, R582). -/
def ZeroBegins (s t : State) : Prop :=
  t.sec.zscope = s.sec.zscope ||| 1 ∧ bitOf t.sec.bbr 56 = true ∧ bitOf t.sec.state 50 = true ∧ bitOf (tget 0 t.sec.bbram 5) 1 = true
  ∧ (∀ k, k ≠ 5 → tget 0 t.sec.bbram k = tget 0 s.sec.bbram k) ∧ bitOf t.dbg.ctl 59 = true ∧ fld t.dbg.ctl 63 60 = fld s.dbg.ctl 63 60
  ∧ t = { s with dbg := { s.dbg with ctl := t.dbg.ctl, req := 0 },
                 sec := { s.sec with zscope := t.sec.zscope, bbr := t.sec.bbr, state := t.sec.state, bbram := t.sec.bbram } }

/-- Channels fire: FIRED, the pin's pulse, and the halt group of engines and panels (R591 to R593). -/
def Fired (s t : State) (mask : Nat) : Prop :=
  (∀ b, b < 64 → bitOf t.dbg.xtch b = (bitOf s.dbg.xtch b || decide (48 ≤ b) && nbit mask (b - 48)))
  ∧ t.pins = (if mask &&& fld s.dbg.xtch 47 32 = 0 then s.pins else { s.pins with xtrigUntil := s.now + 1 })
  ∧ (∀ e, eng t e = (let x := eng s e
      if (x.st = .running ∨ x.st = .waiting) ∧ fld x.xt 15 0 &&& mask ≠ 0 ∧ x.halting = false then
        { x with halting := true, hcause := 7, ctl := setBit x.ctl 0 false, stepping := false } else x))
  ∧ (∀ p, p < 32 → tget 0 t.dbg.xtp p = (let w := tget 0 s.dbg.xtp p
      if fld w 15 0 &&& mask = 0 then w else if panelLocked s p then setBit w 62 true else setBit w 63 true))
  ∧ t = { s with engines := t.engines, pins := t.pins, dbg := { s.dbg with xtch := t.dbg.xtch, xtp := t.dbg.xtp } }

/-- The debug access master may take a request (R583). -/
abbrev DapIdle (s : State) : Prop := nativeTap s = true ∧ s.dbg.dapBusy = false ∧ initSends s 0x10 = true

/-- The master's request is on its way. -/
def dapSent (s : State) (a cmd : Nat) (w : Word) : State :=
  { s with dbg := { s.dbg with dapCmd := cmd, dapAddr := a, dapData := w, dapPois := false, dapBusy := true } }

/-- The state once a request is noted, its number taken, and the request as it is carried, an engine's word its transfer's. -/
def noted (s : State) (r : Req) : State :=
  match xferNote s { r with id := s.noc.seq } with
  | some u => { u with noc := { u.noc with seq := s.noc.seq + 1 } }
  | none => s
def carried (s : State) (r : Req) : Req := xferFill (noted s r) { r with id := s.noc.seq }

/-- A request of one word that reaches a register block whose unit is running (R26, R37, R585), no COLD episode being under way. -/
abbrev RegReach (s : State) (r : Req) (d : Dest) : Prop :=
  Sends s r ∧ Arrives (noted s r) { r with id := s.noc.seq } d ∧ d.kind = .reg ∧ s.rst.active = false
  ∧ (regUnit (regSplit r.a).2).all (fun u => unitAdmits s u r.h.init.toNat) = true

/-- The request is done and answered; beside the network only what the register holds changes. -/
def RegAnswers (s t : State) (r : Req) (d : Dest) (p : Req → Resp) : Prop :=
  t.noc = { sentNoc (noted s r) { r with id := s.noc.seq } with responses := s.noc.responses ++ [p { carried s r with slot := d.place }] }
  ∧ t = { noted s r with noc := t.noc, engines := t.engines }

/-- One of the four words of the 32-byte block at a is a register of a kind that belongs to unit e. -/
def blockHas (a e : Nat) (k : RegKind) : Bool :=
  (List.range 4).any (fun j => (regOf (a / 32 * 32 + 8 * j)).any (fun g => g.kind == k && g.u == e))

/-! ### Self-test and repair -/

/-- Slice j is the first from k on whose kind is enabled and whose unit was configured (R614). -/
abbrev NextSlice (s : State) (k j : Nat) : Prop := k ≤ j ∧ j < 52 ∧ sliceRuns s j = true ∧ ∀ i, i < j → k ≤ i → sliceRuns s i = false
abbrev LastSlice (s : State) (k : Nat) : Prop := ∀ i, i < 52 → k ≤ i → sliceRuns s i = false

/-- Results word n + 1 (R619). -/
def resWord (s : State) (n : Nat) : Word := s.st.results.getD n 0

/-- A step of the self-test: only the self-test's unit, the log and its notifications, and the routers of a crossing may differ. -/
def TestOnly (s t : State) : Prop := t = { s with st := t.st, svc := t.svc, routers := t.routers }

/-- A slice's failures are logged with its number (R615). -/
def SliceLogged (s t : State) (k : Nat) (fails : List Nat) : Prop :=
  t.st.log = if fails = [] then s.st.log else (faultLog s 0x13 k k).st.log

/-- The new record stands in the other copy, active and valid, SDPEND clear, and the old copy is untouched (R616, R618, R620). -/
def RecordMade (s t : State) (res : List Word) : Prop :=
  let c := 1 - recAct s
  let new := recCopy t c
  let es := recEntries new
  stage t = 23 ∧ t.rst.shdnAck = true ∧ recAct t = c ∧ bitOf (tget 0 t.sec.bbram 16) 63 = false
  ∧ (∀ k, k ≠ 16 → (k < 17 + 247 * c ∨ 17 + 247 * c + 247 ≤ k) → tget 0 t.sec.bbram k = tget 0 s.sec.bbram k)
  ∧ recValid new = true ∧ fld (new.headD 0) 47 32 = (fld (s.st.record.headD 0) 47 32 + 1) % 65536
  ∧ (new.drop 1).take 7 = res.take 7 ∧ fld (new.getD 8 0) 51 0 = fld (res.getD 7 0) 51 0
  ∧ fld (new.getD 8 0) 63 52 = min 4095 ((s.now - s.st.testAt) / 1000)
  ∧ ((recNew s).2 = false → bitOf (new.headD 0) 30 = false ∧
      (∀ e ∈ recEntries s.st.record ++ s.st.swaps ++ s.st.hardCols ++ bankEntries s, e ∈ es ∨
        entType e = 2 ∧ ∃ r ∈ es, entType r = 1 ∧ fld r 59 48 = fld e 59 48 ∧ fld r 46 40 = fld e 44 32 / 64))

/-- DOWN of both ends of every link of a crossing becomes d, the routers being otherwise as they were (R251, R255). -/
def CrossingIs (s t : State) (c : Nat) (d : Nat → Nat → Bool) : Prop :=
  (∀ p ∈ crossingLinks c, bitOf (routerOf t p.1).link (4 + p.2) = d p.1 p.2)
  ∧ (∀ r b, b < 64 → (∀ p ∈ crossingLinks c, ¬ (p.1 = r ∧ b = 4 + p.2)) → bitOf (routerOf t r).link b = bitOf (routerOf s r).link b)
  ∧ ∀ r, routerOf t r = { routerOf s r with link := (routerOf t r).link, closed := (routerOf t r).closed }

/-- A spare takes over for a wire: the entry of R620. -/
def SpareTaken (s t : State) (c g w sp : Nat) : Prop :=
  t.st.swaps = s.st.swaps ++ [wireEntry c g sp w]
  ∧ ∀ k, tget [] t.st.spares k = if k = 256 * c + g then tget [] s.st.spares k ++ [2 * w + sp] else tget [] s.st.spares k

/-! ### Uluat -/

/-- A message from the host is heard: its carrier works and holds it, and through a window it is the oldest its initiator wrote
there, padded with zeros (R633, R634). -/
def Heard (s : State) (c : Carrier) (bytes : List Byte) (u : State) : Prop :=
  carrierUp s c = true ∧ bytes.length ≤ msgLimit s (carPath c) ∧
  match c with
  | .window i => ∃ pre pad post, s.svc.host = pre ++ (i.toNat, bytes ++ pad) :: post ∧ (∀ m ∈ pre, m.1 ≠ i.toNat) ∧ (∀ b ∈ pad, b = 0) ∧
      u = { s with svc := { s.svc with received := s.svc.received + 1, host := pre ++ post } }
  | _ => u = { s with svc := { s.svc with received := s.svc.received + 1 } }

/-- A message outside any session goes out on a carrier, and nothing else changes. -/
def SentRaw (s t : State) (path init : Nat) (bytes : List Byte) : Prop :=
  t = { s with svc := { s.svc with outbox := s.svc.outbox ++ [{ path := path, init := init, bytes := bytes }] } }

/-- A message of session k goes out, tagged where its level asks (R640); nothing else changes. -/
def Sent (s t : State) (k : Nat) (msg : List Byte) : Prop :=
  let x := sessOf s k
  t.svc.outbox = s.svc.outbox ++ [{ path := x.path, init := x.init, bytes := if x.tagged then msg ++ sessTag x 1 x.cntOut msg else msg }]
  ∧ (∀ j, sessOf t j = if j = k then { x with cntOut := if x.tagged then x.cntOut + 1 else x.cntOut } else sessOf s j)
  ∧ t = { s with svc := { s.svc with slots := t.svc.slots, outbox := t.svc.outbox } }

/-- ABORT for a request of session k (R635, R642), and its OK. -/
def Aborts (s t : State) (k tid index sub code detail : Nat) : Prop :=
  Sent s t k (msgFull 9 0 (sessOf s k).sid tid sub index [BitVec.ofNat 8 code, BitVec.ofNat 8 detail, 0, 0])
def Oks (s t : State) (k tid index sub : Nat) (value : List Byte) : Prop := Sent s t k (msgFull 8 0 (sessOf s k).sid tid sub index value)

/-- A message whose bytes are `msg` and whose tag is right is heard in ready session k of its carrier: u is the state with it
counted and the session's time and count moved on (R637, R640). -/
def InSession (s : State) (c : Carrier) (sid : Byte) (msg tag : List Byte) (k : Nat) (u : State) : Prop :=
  ∃ h, Heard s c (msg ++ tag) h ∧ sessFind h c sid = some k ∧
    (let x := sessOf h k
     x.ready = true ∧ x.sid ≠ 0 ∧ (x.level = 0 ∨ tag = sessTag x 0 x.cntIn msg) ∧
     u = sessPut h k { x with last := h.now, cntIn := if x.level = 0 then x.cntIn else x.cntIn + 1 })

/-- Session k ends: CLOSE is sent, the slot is free and nothing of it is outstanding (R637). -/
def Closed (s t : State) (k : Nat) : Prop :=
  (∃ u, Sent s u k (msgFull 7 0 (sessOf s k).sid 0 0 0 [0x12]) ∧ t.svc.outbox = u.svc.outbox)
  ∧ sessOf t k = {} ∧ (∀ j, j ≠ k → sessOf t j = sessOf s j) ∧ t.svc.queue = s.svc.queue.filter (fun r => r.slot != k)
  ∧ (∀ w, t.svc.wait = some w ↔ s.svc.wait = some w ∧ w.req.slot ≠ k)
  ∧ t = { s with svc := { s.svc with slots := t.svc.slots, queue := t.svc.queue, wait := t.svc.wait, outbox := t.svc.outbox } }

/-- The authentications that failed within the last minute (R562). -/
def authRecent (s : State) : List Nat := s.sec.authFails.filter (fun f => decide (s.now < f + 60000000))

/-- What the bridge waits with: the message's access of session k. -/
def accessOf (k : Nat) (m : Msg) (write : Bool) : ObjReq :=
  { slot := k, tid := m.tid.toNat, write := write, index := m.index.toNat, sub := m.sub.toNat, data := m.payload }

/-- The bridge takes q, the oldest access, in session k: u is the state without it (R641). -/
abbrev BridgeTakes (s : State) (q : ObjReq) (u : State) : Prop :=
  ∃ rest, s.svc.queue = q :: rest ∧ s.svc.wait = none ∧ s.rst.hubLoading = false ∧ (sessOf s q.slot).sid ≠ 0
    ∧ u = { s with svc := { s.svc with queue := rest } }

/-! ### The block as a whole -/

/-- Registers, with the value the spec's tables give each at reset. -/
def resetValues : List (RegKind × Word) :=
  [(.rstCause, 0), (.rstState, 0), (.clkRef, 0x0007000000000000), (.pllCfg, 0x207C000000000000), (.pwrAvs, 0x00000A0A32013210), (.pwrOpp, 0x0000000000700707),
   (.cfgStat, 0), (.secState, 0), (.almCfg, 0x5), (.almStat, 0), (.dbgCtl, 0x0020000000000000), (.dbgIbp, 0), (.dbgDbp, 0x000007FF00000000), (.dbgXt, 0),
   (.drnCtl, 0x8062000000000000), (.nocQos, 0x0000000000010408), (.nocPorten, 0x00000000000FFFFF), (.stCfg, 0x03E80000001000F0), (.stLat, 0xFFFF000000000000),
   (.stSum, 0), (.mcCtl, 0x0040100001000000), (.mcStat, 0), (.grdCtl, 0x0000108000000001), (.dqCtl, 0x2000000000000000), (.bnkCfg, 0x0000041000000110),
   (.bnkErr, 0), (.bnkScrub, 0x803F640000000000), (.engWdt, 0xA)]

/-- The security state the fuses give (R550). -/
def fusedState (s : State) : Nat := if bitOf (fuseWord s 2) 0 then 2 else if bitOf (fuseWord s 1) 0 then 1 else 0
end Sys2Proof.Safety
end

