-- ==== Sys2Proof/Certificates/Slice0/Obligations.lean ====
section
/-! DEFINITION. The statements for the provers: what the commands of each family do, what each leaves unchanged, and what holds
of every step. -/

open Sys2Proof Sys2Proof.Machine Sys2Proof.Safety

/-- R13, R15, R19, R26, R30, R37, R38 and R40: register writes, and the wrappers of units. A wrapper's `off` is the model's own note that
its unit was disabled for itself (log entry 13). -/
def Obligations.RegistersAndUnits : Prop :=
  ∀ (s : State) (init : BitVec 16) (addr : Addr) (v : Word) (u : UnitRef),
    let a := addr.toNat
    let write := fun (t : State) => exec (.registerWrite init addr v) s = .next t
    let inside := 0x1F000000000 ≤ a ∧ a < 0x1FC00000000 ∧ a % 8 = 0
    let k := unitKey u
    let w := wrapOf s k
    let becomes := fun (t : State) (x : Wrapper) => ∀ j, wrapOf t j = if j = k then x else wrapOf s j
    let stopped : Wrapper := { w with st := if w.enableAfter then .waking else .stopped, enableAfter := false }
    (¬ inside → ∃ t, write t ∧ t = s)
    ∧ (inside → 0x1F800000000 ≤ a → ¬ (init = 0x10 ∧ dbgLevel s = 2) → ∃ t, write t ∧ t = s)
    ∧ (inside → a < 0x1F800000000 → regOf a = none → ∃ t, write t ∧ t = { s with fresh := s.fresh + 1 })
    ∧ (∀ r, inside → a < 0x1F800000000 → regOf a = some r →
        (16 ≤ init.toNat → init ≠ 0x10 → chapterGrant r init.toNat true = false → ∃ t, write t ∧ t = s) ∧
        (init.toNat < 16 → (r.kind ∈ regsRo → ∃ t, write t ∧ t = s) ∧
          (∀ m, (r.kind, m) ∈ regsRw → ∃ t, write t ∧ regRead t r = v &&& m ∧ RegAlone s t r) ∧
          (∀ m, (r.kind, m) ∈ regsW1c → ∃ t, write t ∧ regRead t r = regRead s r &&& ~~~ (v &&& m) ∧ RegAlone s t r)))
    ∧ (w.st = .running ∨ w.st = .waking → ∃ t, exec (.unitDisable u) s = .next t ∧ becomes t { w with st := .draining, off := true } ∧ t.noc = s.noc ∧
        (k < 4096 ∨ 4480 ≤ k ∧ k < 6000 → (∀ m, k = 5000 + m → mcState (mcOf s m) ≠ 1) → t = { s with wraps := t.wraps }))
    ∧ (w.st = .draining → ∃ t, exec (.unitDisable u) s = .next t ∧ t = s)
    ∧ (w.st = .stopped → ∃ t, exec (.unitDisable u) s = .next t ∧ becomes t { w with off := true } ∧ t.noc = s.noc)
    ∧ ((w.st = .draining → ∃ t, exec (.unitEnable u) s = .next t ∧ becomes t { w with enableAfter := true, off := false } ∧ t = { s with wraps := t.wraps }) ∧
        (w.st = .stopped → ¬ (5000 ≤ k ∧ k < 5008) → ∃ t, exec (.unitEnable u) s = .next t ∧ becomes t { w with st := .waking, off := false } ∧ t = { s with wraps := t.wraps }) ∧
        (w.st = .running ∨ w.st = .waking → ∃ t, exec (.unitEnable u) s = .next t ∧ t = s))
    ∧ (w.st = .draining → Calm s k → (∃ t, exec (.drainExpire u) s = .next t ∧ becomes t stopped ∧
          t = { s with wraps := t.wraps, noc := { s.noc with accepted := s.noc.accepted.filter (fun r => r.unit != k), responses := s.noc.responses ++ (s.noc.accepted.filter (fun r => r.unit == k)).map (fun r => r.err 3) }, banks := t.banks, engines := t.engines, fresh := t.fresh } ∧
          (k < 4096 → t.banks = s.banks) ∧ (3840 ≤ k → t.engines = s.engines) ∧ (ReadsOnly s k → t.banks = s.banks ∧ t.engines = s.engines ∧ t.fresh = s.fresh)) ∧
        ((∀ r ∈ s.noc.accepted, r.unit ≠ k) → ∃ t, exec (.drainComplete u) s = .next t ∧ becomes t stopped ∧ t = { s with wraps := t.wraps }))
    ∧ ((∃ r ∈ s.noc.accepted, r.unit = k) → ∃ t, exec (.drainComplete u) s = .next t ∧ t = s)
    ∧ (w.st ≠ .draining → (∃ t, exec (.drainExpire u) s = .next t ∧ t = s) ∧ ∃ t, exec (.drainComplete u) s = .next t ∧ t = s)
    ∧ ((∀ n ∈ unitDoms k, (domOf s n).cur < 2) → (w.st = .waking → unitHeld s k = false → unitReady s k = true → ∃ t, exec (.wrapperOpen u) s = .next t ∧
          becomes t { w with st := .running, off := false } ∧ t = { s with wraps := t.wraps, noc := { s.noc with outst := s.noc.outst.filter (fun o => decide (initUnit o.init ≠ some k)), iface := s.noc.iface.filter (fun r => decide (initUnit r.h.init.toNat ≠ some k)), responses := s.noc.responses.filter (fun r => !r.own || decide (initUnit r.init ≠ some k)) } }) ∧
        (w.st ≠ .waking ∨ unitReady s k = false → ∃ t, exec (.wrapperOpen u) s = .next t ∧ t = s))

/-- R54: MOV, MOVB, AND, OR, XOR, ANDN and NOP, for every slot, cell and input, with their frame. -/
def Obligations.CellLogic : Prop :=
  ∀ (c : CellId) (inp : CellIn) (i : CellPins) (s : State), CellSees s c inp i →
    (CellRuns s c i 0x01 → ∃ t, exec (.cellMov c inp) s = .next t ∧ WroteZN s t c i (cellA s c i))
    ∧ (CellRuns s c i 0x02 → ∃ t, exec (.cellMovb c inp) s = .next t ∧ WroteZN s t c i (cellB s c i))
    ∧ (CellRuns s c i 0x10 → ∃ t, exec (.cellAnd c inp) s = .next t ∧ WroteZN s t c i (cellA s c i &&& cellB s c i))
    ∧ (CellRuns s c i 0x11 → ∃ t, exec (.cellOr c inp) s = .next t ∧ WroteZN s t c i (cellA s c i ||| cellB s c i))
    ∧ (CellRuns s c i 0x12 → ∃ t, exec (.cellXor c inp) s = .next t ∧ WroteZN s t c i (cellA s c i ^^^ cellB s c i))
    ∧ (CellRuns s c i 0x13 → ∃ t, exec (.cellAndn c inp) s = .next t ∧ WroteZN s t c i (cellA s c i &&& ~~~ cellB s c i))
    ∧ (CellClocked s c i 0x00 → cellEnabled (cellCtl s c) i = true → ∃ t, exec (.cellNop c inp) s = .next t ∧ CellOnly s t c 8 ∧
        cellOf t c = { cellOf s c with co := false, eo := false, ctx := nextIx (cellCtl s c) (cellOf s c).ctx })

/-- R52 for every operation but NOP, and the registers, flags and registered outputs of R49. -/
def Obligations.CellHolds : Prop :=
  ∀ (c : CellId) (inp : CellIn) (i : CellPins) (s : State) (op : Nat) (cmd : Instr), CellSees s c inp i → (op, cmd) ∈
      [(0x01, Instr.cellMov c inp), (0x02, Instr.cellMovb c inp), (0x04, Instr.cellAdd c inp), (0x05, Instr.cellSub c inp), (0x06, Instr.cellCmp c inp),
      (0x07, Instr.cellMin c inp), (0x08, Instr.cellMax c inp), (0x09, Instr.cellAbsd c inp), (0x10, Instr.cellAnd c inp), (0x11, Instr.cellOr c inp),
      (0x12, Instr.cellXor c inp), (0x13, Instr.cellAndn c inp), (0x14, Instr.cellShl c inp), (0x15, Instr.cellShr c inp), (0x16, Instr.cellRol c inp),
      (0x17, Instr.cellRor c inp), (0x18, Instr.cellExt c inp), (0x19, Instr.cellIns c inp), (0x1A, Instr.cellPopc c inp), (0x1B, Instr.cellClz c inp),
      (0x20, Instr.cellMullo c inp), (0x21, Instr.cellMulhi c inp), (0x22, Instr.cellMulw0 c inp), (0x23, Instr.cellMulw1 c inp), (0x24, Instr.cellDot4 c inp),
      (0x25, Instr.cellDotacc c inp)] → CellClocked s c i op →
    (cellEnabled (cellCtl s c) i = true → cellPred (nfld (cellNow s c i) 27 24) (cellOf s c) i = false →
      ∃ t, exec cmd s = .next t ∧ CellOnly s t c 8 ∧
        cellOf t c = { cellOf s c with co := false, eo := false, ctx := nextIx (cellCtl s c) (cellOf s c).ctx })
    ∧ (cellEnabled (cellCtl s c) i = false →
      ∃ t, exec cmd s = .next t ∧ CellOnly s t c 1 ∧
        { cellOf t c with co := false, eo := false } = { cellOf s c with co := false, eo := false })

/-- R54 to R56: the three sums. -/
def Obligations.CellSums : Prop :=
  ∀ (c : CellId) (inp : CellIn) (i : CellPins) (s : State), CellSees s c inp i →
    (CellRuns s c i 0x04 → ∃ t res v, exec (.cellAdd c inp) s = .next t ∧ SumIs false s c i res v ∧
      CellWrote s t c i true res (res == 0) res.msb (topCarry false s c i) v (topCarry false s c i) false)
    ∧ (CellRuns s c i 0x05 → ∃ t res v, exec (.cellSub c inp) s = .next t ∧ SumIs true s c i res v ∧
      CellWrote s t c i true res (res == 0) res.msb (topCarry true s c i) v (topCarry true s c i) false)
    ∧ (CellRuns s c i 0x06 → ∃ t res eo, exec (.cellCmp c inp) s = .next t ∧
      (∀ k, k < cellLanes (cellNow s c i) →
        (laneOfW (cellLaneW (cellNow s c i)) k res).toNat = sumNat true s c i k % 2 ^ cellLaneW (cellNow s c i)) ∧
      eo = (if nfld (cellNow s c i) 23 22 = 3 then cellA s c i == cellB s c i && i.ei else cellA s c i == cellB s c i) ∧
      CellWrote s t c i false res (if nfld (cellNow s c i) 23 22 = 3 then eo else res == 0) res.msb
        (topCarry true s c i) (topOverflow true s c i) (topCarry true s c i) eo)

/-- R54: the operations on single lanes. -/
def Obligations.CellLaneOps : Prop :=
  ∀ (c : CellId) (inp : CellIn) (i : CellPins) (s : State), CellSees s c inp i →
    let slot := cellNow s c i
    let w := cellLaneW slot
    let g := nbit slot 16
    let a := fun k => laneOfW w k (cellA s c i)
    let b := fun k => laneOfW w k (cellB s c i)
    let n := (cellB s c i).toNat % 64 % w
    (CellRuns s c i 0x07 → ∃ t res, exec (.cellMin c inp) s = .next t ∧ WroteZN s t c i res ∧
      ∀ k, k < cellLanes slot → laneVal g (laneOfW w k res) = min (laneVal g (a k)) (laneVal g (b k)))
    ∧ (CellRuns s c i 0x08 → ∃ t res, exec (.cellMax c inp) s = .next t ∧ WroteZN s t c i res ∧
      ∀ k, k < cellLanes slot → laneVal g (laneOfW w k res) = max (laneVal g (a k)) (laneVal g (b k)))
    ∧ (CellRuns s c i 0x09 → ∃ t res, exec (.cellAbsd c inp) s = .next t ∧ WroteZ s t c i res ∧
      ∀ k, k < cellLanes slot → ((laneOfW w k res).toNat : Int) = (laneVal g (a k) - laneVal g (b k)).natAbs)
    ∧ (CellRuns s c i 0x14 → ∃ t res, exec (.cellShl c inp) s = .next t ∧ WroteZN s t c i res ∧
      ∀ k, k < cellLanes slot → laneOfW w k res = a k <<< n)
    ∧ (CellRuns s c i 0x15 → ∃ t res, exec (.cellShr c inp) s = .next t ∧ WroteZN s t c i res ∧
      ∀ k, k < cellLanes slot → laneOfW w k res = if g then (a k).sshiftRight n else a k >>> n)
    ∧ (CellRuns s c i 0x16 → ∃ t res, exec (.cellRol c inp) s = .next t ∧ WroteZN s t c i res ∧
      ∀ k, k < cellLanes slot → laneOfW w k res = (a k).rotateLeft n)
    ∧ (CellRuns s c i 0x17 → ∃ t res, exec (.cellRor c inp) s = .next t ∧ WroteZN s t c i res ∧
      ∀ k, k < cellLanes slot → laneOfW w k res = (a k).rotateRight n)

/-- R54: fields and counts, bit by bit. -/
def Obligations.CellFields : Prop :=
  ∀ (c : CellId) (inp : CellIn) (i : CellPins) (s : State), CellSees s c inp i →
    let slot := cellNow s c i
    let p := fieldP slot
    let l := fieldL slot
    let A := cellA s c i
    (CellRuns s c i 0x18 → ∃ t res, exec (.cellExt c inp) s = .next t ∧ WroteZN s t c i res ∧
      ∀ j, j < 64 → res.getLsbD j = if j < l then A.getLsbD (p + j) else nbit slot 16 && A.getLsbD (p + l - 1))
    ∧ (CellRuns s c i 0x19 → ∃ t res, exec (.cellIns c inp) s = .next t ∧ WroteZN s t c i res ∧
      ∀ j, j < 64 → res.getLsbD j = if p ≤ j ∧ j < p + l then (cellB s c i).getLsbD (j - p) else A.getLsbD j)
    ∧ (CellRuns s c i 0x1A → ∃ t res, exec (.cellPopc c inp) s = .next t ∧ WroteZ s t c i res ∧
      res.toNat = ((List.range 64).filter (fun j => A.getLsbD j)).length)
    ∧ (CellRuns s c i 0x1B → ∃ t res, exec (.cellClz c inp) s = .next t ∧ WroteZ s t c i res ∧ res.toNat ≤ 64 ∧
      (∀ j, 64 - res.toNat ≤ j → A.getLsbD j = false) ∧ (res.toNat < 64 → A.getLsbD (63 - res.toNat) = true))

/-- R54: products of 16-bit lanes. -/
def Obligations.CellProducts : Prop :=
  ∀ (c : CellId) (inp : CellIn) (i : CellPins) (s : State), CellSees s c inp i →
    (CellRuns s c i 0x20 → ∃ t res, exec (.cellMullo c inp) s = .next t ∧ WroteZ s t c i res ∧
      ∀ k, k < 4 → laneOfW 16 k res = (BitVec.ofInt 32 (mulLane s c i k)).extractLsb' 0 16)
    ∧ (CellRuns s c i 0x21 → ∃ t res, exec (.cellMulhi c inp) s = .next t ∧ WroteZ s t c i res ∧
      ∀ k, k < 4 → laneOfW 16 k res = (BitVec.ofInt 32 (mulLane s c i k)).extractLsb' 16 16)
    ∧ (CellRuns s c i 0x22 → ∃ t res, exec (.cellMulw0 c inp) s = .next t ∧ WroteZ s t c i res ∧
      laneOfW 32 0 res = BitVec.ofInt 32 (mulLane s c i 0) ∧ laneOfW 32 1 res = BitVec.ofInt 32 (mulLane s c i 1))
    ∧ (CellRuns s c i 0x23 → ∃ t res, exec (.cellMulw1 c inp) s = .next t ∧ WroteZ s t c i res ∧
      laneOfW 32 0 res = BitVec.ofInt 32 (mulLane s c i 2) ∧ laneOfW 32 1 res = BitVec.ofInt 32 (mulLane s c i 3))
    ∧ (CellRuns s c i 0x24 → ∃ t, exec (.cellDot4 c inp) s = .next t ∧ WroteZN s t c i (BitVec.ofInt 64 (dotSum s c i)))
    ∧ (CellRuns s c i 0x25 → ∃ t, exec (.cellDotacc c inp) s = .next t ∧
        WroteZN s t c i (cellReg (cellOf s c) (nfld (cellNow s c i) 34 33) + BitVec.ofInt 64 (dotSum s c i)))

/-- R60 to R64: the sixteen elements; a cell whose reset tree reaches it and is asserted keeps its reset state (R44). -/
def Obligations.BitMode : Prop :=
  ∀ (c : CellId) (inp : CellIn) (i : CellPins) (s : State), CellSees s c inp i → nbit (cellCtl s c) 0 = true → s.lg.hosted = false →
    let held := nbit (cellCtl s c) 10 = true ∧ rclkInReset s (cellRclk s c) = true
    let runs := rclkRuns s (cellRclk s c) = true
    let e := if cellEnabled (cellCtl s c) i = true then 30 else 1
    let outs := fun (t : State) => (∀ k, k < 64 → (cellOf t c).wo0.getLsbD k = if k < 16 then ffOut t c k else false) ∧
      (∀ j, j < 4 → (cellOf t c).bo.getLsbD j = ffOut t c (4 * j)) ∧ (∀ r, r < 4 → cellReg (cellOf t c) r = cellReg (cellOf s c) r) ∧
      ((cellOf t c).z, (cellOf t c).n, (cellOf t c).cy, (cellOf t c).v, (cellOf t c).ctx)
        = ((cellOf s c).z, (cellOf s c).n, (cellOf s c).cy, (cellOf s c).v, (cellOf s c).ctx)
    (¬ held → runs → ∃ t, exec (.bitModeClock c inp) s = .next t ∧ CellOnly s t c e ∧ outs t ∧
        (∀ k, k < 16 → ffOut t c k = ffNext s c i k) ∧
        (cellEnabled (cellCtl s c) i = true →
          ∀ k, k < 64 → (cellOf t c).wo1.getLsbD k = if k < 16 then combBit (cellVec s c) k i else false))
    ∧ (¬ held → ¬ runs → ∃ t, exec (.bitModeClock c inp) s = .next t ∧ CellOnly s t c 0 ∧ outs t ∧ (cellOf t c).wo1 = (cellOf s c).wo1 ∧
        ∀ k, k < 16 → ffOut t c k = if setBitOf (cellVec s c) k 5 = true ∧ nfld (cellVec s c) (256 + 8 * k + 4) (256 + 8 * k + 3) ≠ 0 ∧
            i.bi.getLsbD (nfld (cellVec s c) (256 + 8 * k + 4) (256 + 8 * k + 3) + 2) = true then setBitOf (cellVec s c) k 6 else ffOut s c k)
    ∧ (held → ∃ t, exec (.bitModeClock c inp) s = .next t ∧ CellOnly s t c (if runs then e else 0) ∧ cellOf t c = cellOf s c)

/-- R94 and R97: one regional clock's multiplexer and gate. -/
def Obligations.ClockSwitch : Prop :=
  ∀ (r : RclkId) (n : Fin 4) (s : State),
    let v := (if tapUsed s r 2 = true then n.val % 2 else 0) + 2 * (if tapUsed s r 3 = true then n.val / 2 else 0)
    (fld (rclkCfg s r) 47 46 = 1 → bitOf (rclkCfg s r) 41 = true → panelReleased s (r / 16) = true →
      ∃ t, exec (.clockSwitchStart r n) s = .next t ∧ RclkOnly s t r ∧
        rclkGet t r = (if (rclkGet s r).pend ≠ none then { rclkGet s r with queued := some v }
          else if (rclkGet s r).src = v then rclkGet s r else { rclkGet s r with pend := some v }))
    ∧ (∀ m, (rclkGet s r).pend = some m →
      ∃ t, exec (.clockSwitchDone r) s = .next t ∧ RclkOnly s t r ∧
        rclkGet t r = { rclkGet s r with
          src := m, swCnt := ((rclkGet s r).swCnt + 1) % 65536, queued := none, fclkCnt := (rclkGet t r).fclkCnt,
          pend := if (rclkGet s r).queued = some m then none else (rclkGet s r).queued })
    ∧ (tapUsed s r 1 = false → ∃ t, exec (.clockGate r) s = .next t ∧ t = s)
    ∧ (fld (rclkCfg s r) 45 44 = 1 → bitOf (rclkCfg s r) 41 = true → tapUsed s r 1 = true →
      ∃ t, exec (.clockGate r) s = .next t ∧ RclkOnly s t r ∧ rclkGet t r = { rclkGet s r with gated := true })
    ∧ ((rclkGet s r).gated = true →
      ∃ t, exec (.clockUngate r) s = .next t ∧ RclkOnly s t r ∧ rclkGet t r = { rclkGet s r with gated := false })

/-- R100 to R102: the tree of one regional clock. -/
def Obligations.ResetTree : Prop :=
  ∀ (r : RclkId) (s : State),
    (∀ src, treeSrcHolds s r src = true → ∃ t, exec (.regionalResetAssert r src) s = .next t ∧ TreeAsserted s t r)
    ∧ (treeHeld s r = false → rclkRuns s r = true →
      ∃ t, exec (.regionalResetRelease r) s = .next t ∧ rclkGet t r = { rclkGet s r with rst := false, rrst := false } ∧
        (∀ k, k ≠ r.val → rclkGet t k = rclkGet s k) ∧
        t = { s with rclks := t.rclks, ports := t.ports, noc := { s.noc with accepted := t.noc.accepted } } ∧
        t.noc.accepted.map (fun q => { q with buf := false }) = s.noc.accepted.map (fun q => { q with buf := false }))

/-- R73 to R78: a notification touches the sessions alone. -/
def Obligations.Governor : Prop :=
  ∀ (s : State),
    (∀ d : DieId, let watts := (1400000000 + (dieGov s d).act) * oppMv (oppVCUR (oppOf s d)) ^ 2 / 850 ^ 2
      let limit := 10 ^ 8 * (dieGov s d).limit
      ∃ t, exec (.governorLimiterTick d) s = .next t ∧
      t = { s with gov := t.gov, svc := t.svc } ∧ t.gov.ctl = s.gov.ctl ∧ t.gov.stat = s.gov.stat ∧
      (∀ k, k ≠ d.val → dieGov t k = dieGov s k) ∧ (dieGov t d).est = watts ∧ (dieGov t d).act = 0 ∧ (dieGov t d).limit = (dieGov s d).limit ∧
      (dieGov t d).thr = (if limit < watts ∧ 1 ≤ (dieGov s d).overUs then min (thrMax s) ((dieGov s d).thr + 1)
        else if watts + 10 ^ 8 * (dieGov s d).hyst < limit then (dieGov s d).thr - 1 else min (thrMax s) (dieGov s d).thr) ∧
      (∀ i, i < 8 → (nbit (dieGov t d).removed i = true ↔ ((dieGov t d).thr, i) ∈ [(1, 7), (2, 3), (2, 7), (3, 2), (3, 5), (3, 7), (4, 1), (4, 3), (4, 5), (4, 7)])) ∧
      (bitOf s.gov.ctl 0 = false ∨ (dieGov s d).thr ≠ 0 → t.svc = s.svc))
    ∧ (∀ (device outside : Nat), s.rst.hubLoading = false →
      0 < (dieGov s 0).est + (dieGov s 1).est + (dieGov s 2).est + (dieGov s 3).est →
      ∃ t, exec (.governorInterval device outside) s = .next t ∧ t = { s with gov := t.gov, pwr := t.pwr, fresh := t.fresh } ∧
        t.gov.ctl = s.gov.ctl ∧ fld t.gov.stat 63 48 = min 0xFFFF device ∧ fld t.gov.stat 43 0 = fld s.gov.stat 43 0 ∧
        (∀ d, d < 4 → bitOf t.gov.stat (44 + d) = (dieGov s d).throttled ∧
          (dieGov t d).limit = (ceilW s - outside) * (dieGov s d).est
            / ((dieGov s 0).est + (dieGov s 1).est + (dieGov s 2).est + (dieGov s 3).est) ∧
          (oppOf t d).gov = (if 50 < (dieGov s d).thrUs then some (oppTGT (oppOf s d) - 1)
            else if (dieGov s d).throttled = false ∧ oppTGT (oppOf s d) < 7 ∧ Headroom s t d (oppTGT (oppOf s d) + 1) then some (oppTGT (oppOf s d) + 1)
            else (oppOf s d).gov)))
    ∧ (∀ dies : BitVec 4, ∃ t, exec (.governorOver dies) s = .next t ∧ t = { s with gov := t.gov, svc := t.svc } ∧
        t.gov = { s.gov with stat := t.gov.stat } ∧ fld t.gov.stat 63 44 = fld s.gov.stat 63 44 ∧
        (∀ d, d < 4 → bitOf t.gov.stat (40 + d) = (bitOf s.gov.stat (40 + d) || dies.getLsbD d)) ∧
        fld t.gov.stat 31 0 = (fld s.gov.stat 31 0 + 1) % 2 ^ 32 ∧ (bitOf s.gov.ctl 0 = false → t.svc = s.svc))
    ∧ (∀ v : Word, ∃ t, exec (.governorControlWrite v) s = .next t ∧ t = { s with gov := t.gov } ∧ t.gov.stat = s.gov.stat ∧
        fld t.gov.ctl 47 32 = fld v 47 32 ∧ fld t.gov.ctl 31 24 = fld v 31 24 ∧ fld t.gov.ctl 19 16 = fld v 19 16 ∧
        fld t.gov.ctl 0 0 = fld v 0 0 ∧ fld t.gov.ctl 63 48 = fld s.gov.ctl 63 48 ∧ fld t.gov.ctl 23 20 = fld s.gov.ctl 23 20 ∧
        fld t.gov.ctl 15 1 = fld s.gov.ctl 15 1 ∧ ∀ d, (dieGov t d).est = (dieGov s d).est ∧ (dieGov t d).limit = (dieGov s d).limit)

/-- R129 and R138 for the operations that move words. An SMOV write of WDK (number 0x1E) is another statement's. -/
def Obligations.EngMoves : Prop :=
  ∀ (e : EngId) (s : State),
    let x := engAt s e
    let w := engWord s e
    let a := vLanes x (iVa w)
    let b := vLanes x (iVb w)
    let m := iMod w
    let n := nfld m 4 4 * 16 + iVb w
    let bits := fun (f : Word → Word → Word) =>
      inV (iVd w) ((List.range 4).map (fun i =>
        ({ val := f (a.getD i {}).val (b.getD i {}).val, pend := (a.getD i {}).pend ||| (b.getD i {}).pend } : Lane)))
    (EngIssues s e 0x00 → ∃ t, exec (.engNop e) s = .next t ∧ EngIssued s t e ∧ InFlight s t e keepAll [])
    ∧ (EngIssues s e 0x10 → ∃ t, exec (.engVmov e) s = .next t ∧ EngIssued s t e ∧ InFlight s t e keepAll [(2, inV (iVd w) a)])
    ∧ (EngIssues s e 0x11 → ∃ t, exec (.engVand e) s = .next t ∧ EngIssued s t e ∧ InFlight s t e keepAll [(2, bits (· &&& ·))])
    ∧ (EngIssues s e 0x12 → ∃ t, exec (.engVor e) s = .next t ∧ EngIssued s t e ∧ InFlight s t e keepAll [(2, bits (· ||| ·))])
    ∧ (EngIssues s e 0x13 → ∃ t, exec (.engVxor e) s = .next t ∧ EngIssued s t e ∧ InFlight s t e keepAll [(2, bits (· ^^^ ·))])
    ∧ (EngIssues s e 0x14 → ∃ t, exec (.engVrot e) s = .next t ∧ EngIssued s t e ∧
        InFlight s t e keepAll [(2, inV (iVd w) ((List.range 4).map (fun i => a.getD ((i + m % 4) % 4) {})))])
    ∧ (EngIssues s e 0x25 → ∃ t, exec (.engVext e) s = .next t ∧ EngIssued s t e ∧
        InFlight s t e keepAll [(2, .lanes .s [(iVd w, a.getD (m % 4) {})])])
    ∧ (EngIssues s e 0x26 → ∃ t, exec (.engVins e) s = .next t ∧ EngIssued s t e ∧
        InFlight s t e keepAll [(2, .lanes .v [(iVd w * 4 + m % 4, sLane x (iVa w))])])
    ∧ (EngIssues s e 0x0D → ∃ t, exec (.engAxfr e) s = .next t ∧ EngIssued s t e ∧
        InFlight s t e keepAll [(2, if nbit m 2 then
          .lanes .accb ((List.range 4).map (fun i =>
            let l := (vLanes x (iVd w)).getD i {}
            (accKey (iVa w % 4) i (m % 4), { l with val := if m % 4 = 2 then l.val &&& 0xFFFFFFFF else l.val })))
          else inV (iVd w) ((List.range 4).map (fun i => tget {} x.accv (accKey (iVa w % 4) i (m % 4)))))])
    ∧ (EngIssues s e 0x20 → nbit m 0 = false → ∃ t, exec (.engSmov e) s = .next t ∧ EngIssued s t e ∧
        InFlight s t e keepAll
          [(2, .lanes .s [(iVd w, { val := specRead (postAll x w (skipSt x)) n, pend := if n = 0x13 then x.f.pend else 0 })])])
    ∧ (EngIssues s e 0x20 → nbit m 0 = true → n ≠ 0x1E → ∃ t, exec (.engSmov e) s = .next t ∧ EngIssued s t e ∧
        InFlight s t e keepAll [(2, if n = 0x11 ∨ n = 0x17 ∨ n = 0x1C then .clear n (sLane x (iVa w)).val
          else .spec n (sLane x (iVa w)).val)])
    ∧ (EngIssues s e 0x21 → ∃ t, exec (.engSadd e) s = .next t ∧ EngIssued s t e ∧
        InFlight s t e keepAll [(1, .lanes .s [(iVd w, { val := (sLane x (iVa w)).val + (sLane x (iVb w)).val,
                                                         pend := (sLane x (iVa w)).pend ||| (sLane x (iVb w)).pend })])])
    ∧ (EngIssues s e 0x22 → ∃ t, exec (.engSaddi e) s = .next t ∧ EngIssued s t e ∧
        InFlight s t e keepAll [(1, .lanes .s [(iVd w,
          { val := (sLane x (iVa w)).val + (BitVec.ofNat 9 (w >>> 40)).signExtend 64, pend := (sLane x (iVa w)).pend })])])
    ∧ (EngIssues s e 0x23 → ∃ t, exec (.engSldi e) s = .next t ∧ EngIssued s t e ∧
        InFlight s t e keepAll [(1, .lanes .s [(iVd w,
          { val := (sLane x (iVd w)).val * 8192 + BitVec.ofNat 64 (nfld w 52 40), pend := (sLane x (iVd w)).pend })])])
    ∧ (EngIssues s e 0x24 → ∃ t, exec (.engAgadd e) s = .next t ∧ EngIssued s t e ∧
        InFlight s t e keepAll [(2, .part (iVd w % 8) (fldMask 22 12)
          (agMove (agGet (postAll x w (skipSt x)) (iVd w % 8)) (BitVec.ofNat 13 (w >>> 40)).toInt) true)])

/-- R121 for packed samples: every lane, every part. -/
def Obligations.EngCi16 : Prop :=
  ∀ (e : EngId) (s : State),
    let x := engAt s e
    let w := engWord s e
    let m := iMod w
    let a := fun i => (vLanes x (iVa w)).getD i {}
    let b := fun i => (vLanes x (iVb w)).getD i {}
    let flag := fun (f : Bool) => Act.xf (if f then 16 else 0)
    let acc := fun (t : Tbl Lane) (r i : Nat) => (List.range 3).map (fun k => tget ({} : Lane) t (accKey r i k))
    let accPart := fun (t : Tbl Lane) (r i p : Nat) =>
      ((BitVec.ofNat 160 (accVal (acc t r i))).extractLsb' (40 * p) 40).toInt
    iFmt w = true →
    (EngIssues s e 0x01 → ∃ t ls, exec (.engCmul e) s = .next t ∧ EngIssued s t e ∧ ls.length = 4 ∧
      (∀ i, i < 4 → IsSat16 (ls.getD i {}) ((a i).pend ||| (b i).pend)
        (fun p => rshrOf 15 (prodPart (nbit m 0) (nbit m 1) (a i) (b i) p))) ∧
      InFlight s t e keepAll [(3, inV (iVd w) ls), (7, flag ((List.range 4).any (fun i =>
        anySat 16 4 (fun p => rshrOf 15 (prodPart (nbit m 0) (nbit m 1) (a i) (b i) p)))))])
    ∧ (EngIssues s e 0x02 → ∃ t ls, exec (.engCadd e) s = .next t ∧ EngIssued s t e ∧ ls.length = 4 ∧
      (∀ i, i < 4 → IsSat16 (ls.getD i {}) ((a i).pend ||| (b i).pend)
        (fun p => rshrOf (m / 4 % 4) (partOf (a i) p + bPart (nbit m 0) false (b i) p))) ∧
      InFlight s t e keepAll [(3, inV (iVd w) ls), (7, flag ((List.range 4).any (fun i =>
        anySat 16 4 (fun p => rshrOf (m / 4 % 4) (partOf (a i) p + bPart (nbit m 0) false (b i) p)))))])
    ∧ (EngIssues s e 0x03 → ∃ t ls, exec (.engCsub e) s = .next t ∧ EngIssued s t e ∧ ls.length = 4 ∧
      (∀ i, i < 4 → IsSat16 (ls.getD i {}) ((a i).pend ||| (b i).pend)
        (fun p => rshrOf (m / 4 % 4) (partOf (a i) p - bPart (nbit m 0) false (b i) p))) ∧
      InFlight s t e keepAll [(3, inV (iVd w) ls), (7, flag ((List.range 4).any (fun i =>
        anySat 16 4 (fun p => rshrOf (m / 4 % 4) (partOf (a i) p - bPart (nbit m 0) false (b i) p)))))])
    ∧ (EngIssues s e 0x04 → ∃ t ws, exec (.engMac e) s = .next t ∧ EngIssued s t e ∧
      (∀ i, i < 4 → ∃ v : BitVec 160, (∀ p, p < 4 → (v.extractLsb' (40 * p) 40).toInt
          = satOf 40 (accPart x.accm (iVd w % 4) i p + prodPart (nbit m 0) (nbit m 1) (a i) (b i) p)) ∧
        ∀ k, k < 3 → (accKey (iVd w % 4) i k,
          { val := BitVec.ofNat 64 (v.toNat >>> (64 * k)), pend := pendOf (acc x.accm (iVd w % 4) i) ||| (a i).pend ||| (b i).pend })
            ∈ ws) ∧ ws.length = 12 ∧
      InFlight s t e keepAll [(1, .lanes .accm ws), (4, .lanes .accv ws), (7, flag ((List.range 4).any (fun i =>
        anySat 40 4 (fun p => accPart x.accm (iVd w % 4) i p + prodPart (nbit m 0) (nbit m 1) (a i) (b i) p))))])
    ∧ (EngIssues s e 0x07 → ∃ t ls, exec (.engFft8 e) s = .next t ∧ EngIssued s t e ∧ ls.length = 4 ∧
      (let xs := (List.range 8).map (fun k => (partOf (a (k / 2)) (2 * (k % 2)), partOf (a (k / 2)) (2 * (k % 2) + 1)))
       let out := fun (i p : Nat) => fft8 xs (nbit m 3) (rev3 (2 * i + p / 2))
       (∀ i, i < 4 → IsSat16 (ls.getD i {}) (pendOf (vLanes x (iVa w)))
         (fun p => rshrOf (15 + m % 8) (if p % 2 = 0 then (out i p).1 else (out i p).2))) ∧
       InFlight s t e keepAll [(6, inV (iVd w) ls), (7, flag ((List.range 4).any (fun i =>
         anySat 16 4 (fun p => rshrOf (15 + m % 8) (if p % 2 = 0 then (out i p).1 else (out i p).2)))))]))
    ∧ (EngIssues s e 0x09 → ∃ t ls, exec (.engArd e) s = .next t ∧ EngIssued s t e ∧ ls.length = 4 ∧
      (∀ i, i < 4 → IsSat16 (ls.getD i {}) (pendOf (acc x.accv (iVa w % 4) i))
        (fun p => rshrOf m (accPart x.accv (iVa w % 4) i p))) ∧
      InFlight s t e keepAll [(4, inV (iVd w) ls), (7, flag ((List.range 4).any (fun i =>
        anySat 16 4 (fun p => rshrOf m (accPart x.accv (iVa w % 4) i p)))))])
    ∧ (EngIssues s e 0x0A → ∃ t ls, exec (.engArdc e) s = .next t ∧ EngIssued s t e ∧ ls.length = 4 ∧
      (∀ i, i < 4 → IsSat16 (ls.getD i {}) (pendOf (acc x.accv (iVa w % 4) i))
        (fun p => rshrOf m (accPart x.accv (iVa w % 4) i p))) ∧
      InFlight s t e (notToAcc (iVa w % 4)) [(4, inV (iVd w) ls), (7, flag ((List.range 4).any (fun i =>
        anySat 16 4 (fun p => rshrOf m (accPart x.accv (iVa w % 4) i p))))), (1, accZero (iVa w % 4))])

/-- R121, R131, R134: complex binary32. -/
def Obligations.EngCf32 : Prop :=
  ∀ (e : EngId) (s : State),
    let x := engAt s e
    let w := engWord s e
    let m := iMod w
    let a := fun i => (vLanes x (iVa w)).getD i {}
    let b := fun i => (vLanes x (iVb w)).getD i {}
    let win := fun i => (vLanes x 15).getD i {}
    let c := fun i => tget ({} : Lane) x.accm (accKey (iVd w % 4) i 0)
    let four := fun (f : Nat → Lane) => (List.range 4).map f
    let flags := fun (f : Nat → Nat) => Act.xf (BitVec.ofNat 64 ((List.range 4).foldl (fun z i => z ||| f i) 0))
    let lane := fun (re im : List FTerm) (pend : BitVec 4) => ofParts (fSum re).1 (fSum im).1 pend
    let fl := fun (re im : List FTerm) => (fSum re).2 ||| (fSum im).2
    let sum := fun (sub : Bool) (i : Nat) =>
      ([fPlain (reBits (a i)), fPlain (if sub then f32Neg (reBits (b i)) else reBits (b i))],
       [fPlain (imBits (a i)), fPlain (if nbit m 0 != sub then f32Neg (imBits (b i)) else imBits (b i))])
    let mac := fun (cj ng : Bool) (p : Nat → Lane) (i : Nat) =>
      (fPlain (reBits (c i)) :: cRe cj ng (p i) (b i), fPlain (imBits (c i)) :: cIm cj ng (p i) (b i))
    let accW := fun (f : Nat → Lane) => four f |>.zipIdx.map (fun p => (accKey (iVd w % 4) p.2 0, p.1))
    (EngIssues s e 0x01 → iFmt w = false → ∃ t, exec (.engCmul e) s = .next t ∧ EngIssued s t e ∧ InFlight s t e keepAll
      [(4, inV (iVd w) (four (fun i => lane (cRe (nbit m 0) (nbit m 1) (a i) (b i)) (cIm (nbit m 0) (nbit m 1) (a i) (b i))
          ((a i).pend ||| (b i).pend)))),
       (7, flags (fun i => fl (cRe (nbit m 0) (nbit m 1) (a i) (b i)) (cIm (nbit m 0) (nbit m 1) (a i) (b i))))])
    ∧ (EngIssues s e 0x02 → iFmt w = false → ∃ t, exec (.engCadd e) s = .next t ∧ EngIssued s t e ∧ InFlight s t e keepAll
      [(4, inV (iVd w) (four (fun i => lane (sum false i).1 (sum false i).2 ((a i).pend ||| (b i).pend)))),
       (7, flags (fun i => fl (sum false i).1 (sum false i).2))])
    ∧ (EngIssues s e 0x03 → iFmt w = false → ∃ t, exec (.engCsub e) s = .next t ∧ EngIssued s t e ∧ InFlight s t e keepAll
      [(4, inV (iVd w) (four (fun i => lane (sum true i).1 (sum true i).2 ((a i).pend ||| (b i).pend)))),
       (7, flags (fun i => fl (sum true i).1 (sum true i).2))])
    ∧ (EngIssues s e 0x04 → iFmt w = false → ∃ t, exec (.engMac e) s = .next t ∧ EngIssued s t e ∧
      (let r := mac (nbit m 0) (nbit m 1) a
       let ws := accW (fun i => lane (r i).1 (r i).2 ((c i).pend ||| (a i).pend ||| (b i).pend))
       InFlight s t e keepAll [(1, .lanes .accm ws), (4, .lanes .accv ws), (7, flags (fun i => fl (r i).1 (r i).2))]))
    ∧ (EngIssues s e 0x05 → ∃ t, exec (.engFtap e) s = .next t ∧ EngIssued s t e ∧
      (let r := mac (nbit m 0) false win
       let ws := accW (fun i => lane (r i).1 (r i).2 ((c i).pend ||| (win i).pend ||| (b i).pend))
       InFlight s t e keepAll [(1, .lanes .accm ws), (4, .lanes .accv ws), (7, flags (fun i => fl (r i).1 (r i).2)),
         (1, .ftap (win 1) (win 2) (win 3))]))
    ∧ (EngIssues s e 0x06 → iFmt w = false → ∃ t, exec (.engBfly e) s = .next t ∧ EngIssued s t e ∧
      (let tw := fun i => let z := twAt x.twc i (nbit m 1); (ofParts (twF32 z.1) (twF32 z.2) 0 : Lane)
       let up := fun i => (fPlain (reBits (a i)) :: cRe false false (b i) (tw i), fPlain (imBits (a i)) :: cIm false false (b i) (tw i))
       let dn := fun i => (fPlain (reBits (a i)) :: cRe false true (b i) (tw i), fPlain (imBits (a i)) :: cIm false true (b i) (tw i))
       ∃ f1 f2, f1 ||| f2 = (List.range 4).foldl (fun z i => z ||| fl (up i).1 (up i).2 ||| fl (dn i).1 (dn i).2) 0 ∧
       InFlight s t e keepAll ([
         (4, inV (iVd w) (four (fun i => lane (up i).1 (up i).2 ((a i).pend ||| (b i).pend)))), (7, .xf (BitVec.ofNat 64 f1)),
         (4, inV (iVd w + 1) (four (fun i => lane (dn i).1 (dn i).2 ((a i).pend ||| (b i).pend)))), (7, .xf (BitVec.ofNat 64 f2))]
         ++ (if nbit m 0 then [] else [(1, .part 0x10 (fldMask 11 0) (setFld 0 11 0 ((fld x.twc 11 0 + 4 * fld x.twc 47 36) % twcHalf x.twc)) false)]))))
    ∧ (EngIssues s e 0x06 → iFmt w = true → ∃ t up dn, exec (.engBfly e) s = .next t ∧ EngIssued s t e ∧
      up.length = 4 ∧ dn.length = 4 ∧
      (let tw := fun (i p : Nat) => let z := twAt x.twc (2 * i + p / 2) (nbit m 1); (twI16 z.1, twI16 z.2)
       let q := fun (i p : Nat) => partOf (b i) p
       let tp := fun (i p : Nat) => if p % 2 = 0 then q i p * (tw i p).1 - q i (p + 1) * (tw i p).2
         else q i (p - 1) * (tw i p).2 + q i p * (tw i p).1
       (∀ i, i < 4 → IsSat16 (up.getD i {}) ((a i).pend ||| (b i).pend)
           (fun p => rshrOf (15 + m / 4 % 4) (partOf (a i) p * 2 ^ 15 + tp i p)) ∧
         IsSat16 (dn.getD i {}) ((a i).pend ||| (b i).pend)
           (fun p => rshrOf (15 + m / 4 % 4) (partOf (a i) p * 2 ^ 15 - tp i p))) ∧
       ∃ f1 f2, InFlight s t e keepAll ([(3, inV (iVd w) up), (7, .xf f1), (3, inV (iVd w + 1) dn), (7, .xf f2)]
         ++ (if nbit m 0 then [] else [(1, .part 0x10 (fldMask 11 0) (setFld 0 11 0 ((fld x.twc 11 0 + 8 * fld x.twc 47 36) % twcHalf x.twc)) false)]))))
    ∧ (EngIssues s e 0x08 → ∃ t, exec (.engAclr e) s = .next t ∧ EngIssued s t e ∧
      InFlight s t e (notToAcc (iVd w % 4)) [(1, accZero (iVd w % 4))])
    ∧ (EngIssues s e 0x09 → iFmt w = false → ∃ t, exec (.engArd e) s = .next t ∧ EngIssued s t e ∧
      InFlight s t e keepAll [(4, inV (iVd w) (four (fun i =>
        { val := (tget {} x.accv (accKey (iVa w % 4) i 0)).val, pend := (tget {} x.accv (accKey (iVa w % 4) i 0)).pend }))),
        (7, .xf 0)])
    ∧ (EngIssues s e 0x0A → iFmt w = false → ∃ t, exec (.engArdc e) s = .next t ∧ EngIssued s t e ∧
      InFlight s t e (notToAcc (iVa w % 4)) [(4, inV (iVd w) (four (fun i =>
        { val := (tget {} x.accv (accKey (iVa w % 4) i 0)).val, pend := (tget {} x.accv (accKey (iVa w % 4) i 0)).pend }))),
        (7, .xf 0), (1, accZero (iVa w % 4))])
    ∧ (EngIssues s e 0x0B → ∃ t ls, exec (.engCvtf e) s = .next t ∧ EngIssued s t e ∧ ls.length = 4 ∧
      (∀ i, i < 4 →
        let src := a ((if nbit m 0 then 2 else 0) + i / 2)
        (ls.getD i {}).pend = src.pend ∧ isFinite32 (reBits (ls.getD i {})) ∧ isFinite32 (imBits (ls.getD i {})) ∧
        f32Int (reBits (ls.getD i {})) = partOf src (2 * (i % 2)) * 2 ^ 134 ∧
        f32Int (imBits (ls.getD i {})) = partOf src (2 * (i % 2) + 1) * 2 ^ 134) ∧
      InFlight s t e keepAll [(4, inV (iVd w) ls)])
    ∧ (EngIssues s e 0x0C → ∃ t ls f, exec (.engCvti e) s = .next t ∧ EngIssued s t e ∧ ls.length = 4 ∧
      (∀ i p, i < 4 → p < 4 →
        let src := (if i < 2 then a else b) (2 * (i % 2) + p / 2)
        let v := if p % 2 = 0 then reBits src else imBits src
        partOf (ls.getD i {}) p = (if f32Nan v then 0 else if f32Inf v then (if nbit v 31 then -32768 else 32767)
          else satOf 16 (rshrOf 134 (f32Int v)))) ∧
      InFlight s t e keepAll [(4, inV (iVd w) ls), (7, .xf f)])

/-- R137, R139 and the access masks of R113 and R149, on results of each kind. -/
def Obligations.EngLanding : Prop :=
  ∀ (free : Nat) (x : Engine),
    ((∀ fl, fl ∈ x.flights → fl.due ≠ x.cyc + 1) → engTick free x = { x with cyc := x.cyc + 1 })
    ∧ (∀ r1 r2 ws1 ws2 k, x.flights = [⟨x.cyc + 1, r1, .lanes .v ws1⟩, ⟨x.cyc + 1, r2, .lanes .v ws2⟩] →
        tget {} (engTick free x).v k = (match ws2.reverse.find? (fun p => p.1 == k) with
          | some p => p.2
          | none => match ws1.reverse.find? (fun p => p.1 == k) with
            | some p => p.2
            | none => tget {} x.v k) ∧ (engTick free x).flights = [] ∧ (engTick free x).dm = x.dm)
    ∧ (∀ r n v, n < 32 → x.flights = [⟨x.cyc + 1, r, .spec n v⟩] →
        engTick free x = { engTick free x with cyc := x.cyc + 1, flights := [] } ∧
        (specMask n ≠ 0 → specRead (engTick free x) n = v &&& specMask n) ∧
        ∀ k, k < 32 → k ≠ n → specRead (engTick free x) k = specRead x k)
    ∧ (∀ r n m v, n < 32 → n ≠ 0x13 → specMask n ≠ 0 → x.flights = [⟨x.cyc + 1, r, .part n m v false⟩] →
        specRead (engTick free x) n = ((specRead x n &&& ~~~ m) ||| (v &&& m)) &&& specMask n ∧
        ∀ k, k < 32 → k ≠ n → specRead (engTick free x) k = specRead x k)
    ∧ (∀ r1 r2 n m u v, n < 32 → n ≠ 0x13 → specMask n ≠ 0 → (x.flights = [⟨x.cyc + 1, r1, .part n m u false⟩, ⟨x.cyc + 1, r2, .spec n v⟩] ∨
          x.flights = [⟨x.cyc + 1, r1, .spec n v⟩, ⟨x.cyc + 1, r2, .part n m u false⟩]) → specRead (engTick free x) n = v &&& specMask n)
    ∧ (∀ r v, x.flights = [⟨x.cyc + 1, r, .clear 0x11 v⟩] → engTick free x = { x with cyc := x.cyc + 1, flights := [], xf := x.xf &&& ~~~ v })
    ∧ (∀ r v, x.flights = [⟨x.cyc + 1, r, .clear 0x17 v⟩] → engTick free x = { x with cyc := x.cyc + 1, flights := [], ipend := x.ipend &&& ~~~ v })
    ∧ (∀ r v, x.flights = [⟨x.cyc + 1, r, .xf v⟩] → engTick free x = { x with cyc := x.cyc + 1, flights := [], xf := x.xf ||| v })

/-- R120: ○, rshr_s and sat_w. -/
def Obligations.RoundNearest : Prop :=
  (∀ (x : Int) (y : Nat), x ≠ 0 → isFinite32 (fRound x).1 → isFinite32 y →
    (f32Int (fRound x).1 * 2 ^ 149 - x).natAbs ≤ (f32Int y * 2 ^ 149 - x).natAbs
    ∧ ((f32Int (fRound x).1 * 2 ^ 149 - x).natAbs = (f32Int y * 2 ^ 149 - x).natAbs → f32Int y ≤ f32Int (fRound x).1))
  ∧ (∀ (sh : Nat) (x : Int), 2 * rshr sh x * 2 ^ sh ≤ 2 * x + 2 ^ sh ∧ 2 * x + 2 ^ sh < 2 * (rshr sh x + 1) * 2 ^ sh)
  ∧ (∀ (w : Nat) (x : Int), 0 < w → (satw w x).1 = satOf w x)

/-- R144 to R147 and R135: the sequence. No register changes in the issue cycle but those named. -/
def Obligations.EngSequence : Prop :=
  ∀ (e : EngId) (s : State),
    let x := engAt s e
    let w := engWord s e
    let next := (x.pc + 1) % 1024
    let sv := (sLane x (iVd w)).val
    let both := lpAct x.lp0 && lpAct x.lp1
    let k0 := lpAct x.lp0 && leaves (iTgt w) x.lp0 || (both && !x.inner && leaves (iTgt w) x.lp1)
    let k1 := lpAct x.lp1 && leaves (iTgt w) x.lp1 || (both && x.inner && leaves (iTgt w) x.lp0)
    let taken := fun (y : Engine) => y = { x with
      flights := y.flights, lastKind := y.lastKind, raq := [], slots := 0, skipIbp := false, retPath := false, point := false,
      pc := next, dsLeft := 2, dsNext := iTgt w,
      lp0 := if k0 then setBit x.lp0 63 false else x.lp0, lp1 := if k1 then setBit x.lp1 63 false else x.lp1 }
    let plain := fun (y : Engine) => y = { x with
      flights := y.flights, lastKind := y.lastKind, slots := 0, skipIbp := false, retPath := false, point := false,
      pc := y.pc, dsLeft := y.dsLeft, dsNext := y.dsNext, lp0 := y.lp0, lp1 := y.lp1, inner := y.inner, repLeft := y.repLeft,
      repSsk := y.repSsk, repFirst := y.repFirst, halting := y.halting, hcause := y.hcause, ctl := y.ctl }
    let passed := fun (y : Engine) => plain y ∧ y.pc = next ∧ y.dsLeft = 2 ∧ y.dsNext = (x.pc + 3) % 1024 ∧ y.lp0 = x.lp0 ∧
      y.lp1 = x.lp1 ∧ y.repLeft = x.repLeft ∧ y.ctl = x.ctl ∧ y.halting = x.halting
    let n := if iFmt w then min 4096 (sLane x (iVa w)).val.toNat else nfld w 51 40 + 1
    (EngIssues s e 0x30 → ∃ t, exec (.engBr e) s = .next t ∧ EngOnly s t e ∧ taken (eng t e) ∧ InFlight s t e keepAll [])
    ∧ (EngIssues s e 0x31 → ∃ t, exec (.engBrz e) s = .next t ∧ EngOnly s t e ∧ InFlight s t e keepAll [] ∧
        if sv = 0 then taken (eng t e) else passed (eng t e))
    ∧ (EngIssues s e 0x32 → ∃ t, exec (.engBrnz e) s = .next t ∧ EngOnly s t e ∧ InFlight s t e keepAll [] ∧
        if sv ≠ 0 then taken (eng t e) else passed (eng t e))
    ∧ (EngIssues s e 0x34 → ∃ t, exec (.engLoop e) s = .next t ∧ EngOnly s t e ∧ InFlight s t e keepAll [] ∧ plain (eng t e) ∧
        (let y := eng t e
         let lw := mkWord [(63, 63, 1), (47, 32, min 65535 sv.toNat), (25, 16, iTgt w), (9, 0, next)]
         y.dsLeft = x.dsLeft ∧ y.repLeft = x.repLeft ∧ y.halting = x.halting ∧
         if sv = 0 then y.pc = (iTgt w + 1) % 1024 ∧ y.lp0 = x.lp0 ∧ y.lp1 = x.lp1
         else y.pc = next ∧ if lpAct x.lp0 then y.lp1 = lw ∧ y.lp0 = x.lp0 ∧ y.inner = true
           else y.lp0 = lw ∧ y.lp1 = x.lp1 ∧ y.inner = false))
    ∧ (EngIssues s e 0x33 → 0 < n → ∃ t, exec (.engRep e) s = .next t ∧ EngOnly s t e ∧ InFlight s t e keepAll [] ∧
        plain (eng t e) ∧ (eng t e).pc = next ∧ (eng t e).repLeft = n ∧ (eng t e).repSsk = iVd w ∧
        (eng t e).lp0 = x.lp0 ∧ (eng t e).lp1 = x.lp1 ∧ (eng t e).dsLeft = x.dsLeft)
    ∧ (EngIssues s e 0x33 → n = 0 → innermost x = none → ∃ t, exec (.engRep e) s = .next t ∧ EngOnly s t e ∧
        InFlight s t e keepAll [] ∧ plain (eng t e) ∧ (eng t e).pc = (x.pc + 2) % 1024 ∧ (eng t e).repLeft = x.repLeft)
    ∧ (EngIssues s e 0x37 → innermost x = none → noXtOut s e = true → ∃ t, exec (.engHalt e) s = .next t ∧ EngOnly s t e ∧
        InFlight s t e keepAll [] ∧ plain (eng t e) ∧ (eng t e).pc = next ∧ (eng t e).halting = true ∧
        (eng t e).hcause = 1 ∧ (eng t e).ctl = setBit x.ctl 0 false)

/-- R157, R144, R151, R152, R176. -/
def Obligations.EngControl : Prop :=
  ∀ (e : EngId) (s : State),
    let x := engAt s e
    let w := engWord s e
    let sd := (sLane x (iVd w)).val
    let sa := (sLane x (iVa w)).val
    let n := fld sa 22 12 + 1
    (EngIssues s e 0x36 → x.flights = [] → iSlot w 0 = 0 → iSlot w 1 = 0 →
      ∃ t, exec (.engReti e) s = .next t ∧ EngOnly s t e ∧
        (let y := eng t e
         let inh := bitOf x.ictl 3
         let exc := bitOf x.ictl 4 && !bitOf x.ictl 5
         let path := exc || x.carried.headD false
         y.ictl = setBit (setBit (setBit x.ictl 0 (bitOf x.ictl 1)) 2 inh) 4 (bitOf x.ictl 5) ∧
         y.lp0 = setBit x.lp0 63 (bitOf x.ictl 8) ∧ y.lp1 = setBit x.lp1 63 (bitOf x.ictl 9) ∧
         agGet y 7 = (if inh then agGet x 7 else x.ag7s) ∧ y.ag7s = (if inh then x.ag7s else agGet x 7) ∧
         (∀ g, g < 7 → agGet y g = agGet x g) ∧ y.pc = fld (if exc then x.epc else x.irp) 9 0 ∧
         (path = false → y.dsLeft = x.dsLeft ∧ y.repLeft = x.repLeft) ∧
         y.carried = (if exc then x.carried else x.carried.drop 1) ∧
         (path = true → y.dsLeft = fld x.ecause 6 5 ∧ (0 < y.dsLeft → y.dsNext = fld x.ecause 25 16) ∧
           y.repLeft = (if bitOf x.ecause 4 then fld x.erpt 28 16 else 0) ∧
           (0 < y.repLeft → y.repSsk = fld x.erpt 3 0)) ∧
         y = { y with v := x.v, accm := x.accm, accv := x.accv, f := x.f, s := x.s, agx := x.agx, twc := x.twc, xf := x.xf,
                      bxd := x.bxd, ipend := x.ipend, irp := x.irp, epc := x.epc, ecause := x.ecause, erpt := x.erpt,
                      scr := x.scr, dm := x.dm, pm := x.pm, vb := x.vb, xfers := x.xfers, ctl := x.ctl }))
    ∧ (EngIssues s e 0x35 → waitMet x (iMod w) = true → ∃ t, exec (.engWaite e) s = .next t ∧ EngIssued s t e)
    ∧ (EngIssues s e 0x35 → waitMet x (iMod w) = false → ∃ t, exec (.engWaite e) s = .next t ∧ EngOnly s t e ∧
        (eng t e).st = .waiting ∧ (eng t e).pc = x.pc ∧ (eng t e).ctl = x.ctl)
    ∧ ((eng s e).st = .waiting → engOff s e = false → (eng s e).halting = false → (eng s e).stepping = false →
        innermost (eng s e) = none → (eng s e).dsLeft = 0 → ((eng s e).vbad = 0 ∨ bitOf (eng s e).ictl 4 = true) →
        waitMet (eng s e) (iMod (tget { val := 0, pois := false } (eng s e).pm (eng s e).pc).val.toNat) = true →
        ∃ t, exec (.engWaite e) s = .next t ∧ EngOnly s t e ∧
          eng t e = { eng s e with st := .running, pc := ((eng s e).pc + 1) % 1024, point := false })
    ∧ (EngIssues s e 0x38 → ∃ t, exec (.engXfer e) s = .next t ∧ EngOnly s t e ∧ InFlight s t e keepAll [] ∧
        (let y := eng t e
         let early := !bitOf sa 24 && bitOf sa 25
         y.dm = x.dm ∧ y.v = x.v ∧ y.s = x.s ∧ y.ictl = x.ictl ∧
         if iMod w % 4 = 0 ∧ 8 < n then y.xfers = x.xfers ∧ y.ipend = setBit x.ipend 2 true ∧ y.vids = x.vids
         else y.ipend = x.ipend ∧ ∃ v, y.xfers = x.xfers ++
             [{ addr := fld sd 47 3 * 8, laddr := fld sa 10 0, len := n, write := bitOf sa 24, cls := iMod w % 4, early := v }] ∧
           (early = false → v = none ∧ y.vids = x.vids) ∧
           (early = true → ∃ k, v = some k ∧ k < 4 ∧ x.vids.getLsbD k = false ∧ (∀ j, j < k → x.vids.getLsbD j = true) ∧
             y.vids = x.vids ||| BitVec.ofNat 4 (2 ^ k))))
    ∧ (EngIssues s e 0x20 → nbit (iMod w) 0 = true → nfld (iMod w) 4 4 * 16 + iVb w = 0x1E → bitOf x.wdt 0 = true →
        (sa.toNat % 65536 = 0xA5 → ∃ t, exec (.engSmov e) s = .next t ∧ EngOnly s t e ∧ (eng t e).wdFirst = false ∧
          (eng t e).ipend = x.ipend) ∧
        (sa.toNat % 65536 ≠ 0xA5 → bitOf x.wdt 1 = true → x.wdFirst = false →
          ∃ t, exec (.engSmov e) s = .next t ∧ EngOnly s t e ∧ (eng t e).wdFirst = true ∧
            (eng t e).ipend = setBit x.ipend 5 true))

/-- R128 and R140. -/
def Obligations.EngSlots : Prop :=
  (∀ (e : EngId) (k : Fin 2) (flips : List (BitVec 80)) (s : State),
    (SlotReady s e k true 1 → ∃ t, exec (.loadQuad e k flips) s = .next t ∧ SlotMade s t e k true 1 (slotLoad s e k flips))
    ∧ (SlotReady s e k true 2 → ∃ t, exec (.loadWord e k flips) s = .next t ∧ SlotMade s t e k true 1 (slotLoad s e k flips))
    ∧ (SlotReady s e k true 3 → ∃ t, exec (.loadF e k flips) s = .next t ∧ SlotMade s t e k true 1 (slotLoad s e k flips))
    ∧ (SlotReady s e k false 1 → ∃ t, exec (.storeQuad e k) s = .next t ∧ SlotMade s t e k false 2 (slotStore s e k))
    ∧ (SlotReady s e k false 2 → ∃ t, exec (.storeWord e k) s = .next t ∧ SlotMade s t e k false 2 (slotStore s e k))
    ∧ (SlotReady s e k false 3 → ∃ t, exec (.storeQuadObserved e k) s = .next t ∧ SlotMade s t e k false 2 (slotStore s e k)))
  ∧ (∀ (free : Nat) (x : Engine) (r lk addr vl ag : Nat), x.vb = [] → 1 ≤ lk → lk ≤ 3 →
      ∀ pm, x.flights = [⟨x.cyc + 1, r, .load lk addr vl ag pm []⟩] →
      let a := quadBase (lk == 1) addr
      let mem := fun j => tget ({} : Lane) x.dm ((a + j) % 2048)
      let reads := fun (word : Nat → Lane) (q : Tbl (List RaEntry)) =>
        engTick free x = { x with cyc := x.cyc + 1, raq := q, flights := [⟨x.cyc + 4, r,
          if lk = 1 then .lanes .v ((List.range 4).map (fun i => (vl * 4 + i, word i)))
          else if lk = 2 then .lanes .v ((List.range 4).map (fun i => (vl * 4 + i, word 0)))
          else .lanes .f [(0, word 0)]⟩] }
      (tget [] x.raq ag = [] → reads mem x.raq) ∧
      (∀ h rest, tget [] x.raq ag = h :: rest →
        (h.addr = a → h.lk = lk → reads (fun j => h.ws.getD j {}) (tset [] x.raq ag (if pm then rest else h :: rest))) ∧
        (h.addr ≠ a ∨ h.lk ≠ lk → reads mem (tset [] x.raq ag []))))
  ∧ (∀ (free : Nat) (x : Engine) (r addr : Nat) (ws : List Lane), x.vb = [] → ws.length ≤ 4 → addr + ws.length ≤ 2048 →
      x.flights = [⟨x.cyc + 1, r, .store addr ws 0⟩] →
      (pendOf ws = 0 → (∀ a, tget {} (engTick free x).dm a
          = if addr ≤ a ∧ a < addr + ws.length then ws.getD (a - addr) {} else tget {} x.dm a) ∧
        engTick free x = { x with cyc := x.cyc + 1, flights := [], dm := (engTick free x).dm, raq := (engTick free x).raq }) ∧
      (pendOf ws ≠ 0 → engTick free x = { x with cyc := x.cyc + 1, flights := [], vb := [{ addr := addr, ws := ws, obs := 0 }] }))

/-- R155 to R164. -/
def Obligations.EngEntries : Prop :=
  ∀ (e : EngId) (s : State),
    let x := eng s e
    (let b := engTick s.fresh x
     engOff s e = false → intEligible b = true →
      (if x.st = .waiting then x.vbad = 0 ∨ bitOf b.ictl 4 = true else excDue b = none) →
      ∃ t, exec (.interruptEntry e) s = .next t ∧ EngOnly s t e ∧
        (let z := engDrain s.fresh { x with irp := BitVec.ofNat 64 x.pc }
         Entered z (eng t e) false 0x010 ∧ (eng t e).irp = z.irp ∧ (eng t e).epc = z.epc ∧
         (eng t e).ecause = z.ecause ∧ (eng t e).erpt = z.erpt ∧
         (eng t e).carried = (x.retPath && (decide (0 < x.repLeft) || decide (0 < x.dsLeft))) :: x.carried ∧
         ((∀ fl ∈ x.flights, notSpec 0x18 fl) → (eng t e).irp = BitVec.ofNat 64 x.pc)))
    ∧ (∀ c d, engOff s e = false → (engReady s.fresh x).2 = Ready.exc c d → (c = 5 ∨ bitOf (engAt s e).ictl 4 = false) →
      (engAt s e).stepping = false →
      ∃ t, exec (.exceptionEntry e 0) s = .next t ∧ EngOnly s t e ∧
        (let r := engAt s e
         let rpt := if 0 < r.repLeft then mkWord [(28, 16, r.repLeft), (3, 0, r.repSsk)] else r.erpt
         let y := eng t e
         let z := engDrain s.fresh { r with epc := BitVec.ofNat 64 r.pc, ecause := y.ecause, erpt := rpt, vbad := y.vbad }
         Entered z y true 0x008 ∧ y.epc = z.epc ∧ y.irp = z.irp ∧ y.erpt = z.erpt ∧ y.vbad = (if c = 5 then 0 else r.vbad) ∧
         ((∀ fl ∈ r.flights, notSpec 0x19 fl) → y.epc = BitVec.ofNat 64 r.pc) ∧
         ((∀ fl ∈ r.flights, notSpec 0x1B fl) → y.erpt = rpt) ∧ fld y.ecause 3 0 = c % 16 ∧
         fld y.ecause 15 8 = d % 256 ∧ fld y.ecause 6 5 = r.dsLeft % 4 ∧
         fld y.ecause 25 16 = (if r.dsLeft = 0 then 0 else r.dsNext % 1024) ∧ bitOf y.ecause 4 = decide (0 < r.repLeft)))
    ∧ (∀ c d, engOff s e = false → (engReady s.fresh x).2 = Ready.exc c d → c ≠ 5 → bitOf (engAt s e).ictl 4 = true →
      noXtOut s e = true →
      ∃ t, exec (.exceptionEntry e 0) s = .next t ∧ EngOnly s t e ∧
        eng t e = { engAt s e with halting := true, hcause := 3, ctl := setBit (engAt s e).ctl 0 false, stepping := false })
    ∧ (∀ flip, engOff s e = false → fetchLost s flip = true → (engReady s.fresh (engFetched s e flip)).2 = Ready.exc 4 0 →
      bitOf (engReady s.fresh (engFetched s e flip)).1.ictl 4 = false → x.stepping = false →
      (∀ fl ∈ (engReady s.fresh (engFetched s e flip)).1.flights, notSpec 0x19 fl) →
      ∃ t, exec (.exceptionEntry e flip) s = .next t ∧ EngOnly (faultLog s 0x04 e (2048 + x.pc)) t e ∧ (eng t e).pm = x.pm ∧
        (eng t e).pc = 0x008 ∧ (eng t e).epc = BitVec.ofNat 64 (engReady s.fresh (engFetched s e flip)).1.pc ∧ fld (eng t e).ecause 3 0 = 4)
    ∧ (∀ flip : BitVec 80, ((bitsOf 80 flip.toNat).length ≤ 2 → fetchLost s flip = false) ∧
        ((bitsOf 80 flip.toNat).length = 3 → fetchLost s flip = true))
    ∧ (∀ y : Engine, y.vbad = 0 →
      let p := tget ({ val := 0, pois := false } : PWord) y.pm y.pc
      let w := p.val.toNat
      (p.pois = true → excDue y = some (4, 0)) ∧
      (p.pois = false → iOp w ∈ [0x0E, 0x0F, 0x15, 0x1F, 0x27, 0x2F, 0x39, 0x3F] → excDue y = some (1, 0)) ∧
      (p.pois = false → iOp w = 0x21 → iMod w = 0 → slLk (iSlot w 0) = 0 → slLk (iSlot w 1) = 0 →
        (sLane y (iVa w)).pois = true → excDue y = some (3, 0x20 + iVa w)))

/-- R142, R143, R153, R177 to R183. -/
def Obligations.EngRunStates : Prop :=
  ∀ (e : EngId) (s : State),
    let x := eng s e
    ((x.st = .running ∨ x.st = .waiting) → x.halting = false → noXtOut s e = true →
      ∃ t, exec (.engHaltRequest e) s = .next t ∧ EngOnly s t e ∧
        eng t e = { x with halting := true, hcause := 2, ctl := setBit x.ctl 0 false, stepping := false })
    ∧ (x.halting = true → bitOf x.ctl 0 = false →
      ∃ t, exec (.haltComplete e) s = .next t ∧ t = { s with engines := t.engines, fresh := t.fresh } ∧
        eng t e = { engDrain s.fresh x with st := .halted, halting := false, raq := [] } ∧
        (∀ k, k ≠ e.val → eng t k = (if (x.hcause = 1 ∨ x.hcause = 3) ∧ k / 8 = e.val / 8 ∧ (eng s k).st ≠ .reset then
          { eng s k with ipend := setBit (eng s k).ipend 3 true } else eng s k)))
    ∧ (x.st = .halted → ∃ t, exec (.engResume e) s = .next t ∧ EngOnly s t e ∧ (eng t e).st = .running ∧ (eng t e).pc = x.pc ∧
        (eng t e).ctl = setBit x.ctl 0 true ∧ (eng t e).hcause = 0 ∧
        eng t e = { x with st := .running, ctl := (eng t e).ctl, hcause := 0, skipIbp := (eng t e).skipIbp, stepping := false,
                           wdFirst := (eng t e).wdFirst })
    ∧ (bitOf x.ctl 1 = false → ∃ t, exec (.engHoldReset e true) s = .next t ∧
        EngCleared { x with ctl := setBit x.ctl 1 true } (eng t e) 3 ∧
        (ReadsOnly s e → EngKept x (eng t e) ∧ (∀ k, k ≠ e.val → eng t k = eng s k) ∧ t.fresh = s.fresh) ∧
        t = { s with engines := t.engines, wraps := t.wraps, noc := t.noc, fresh := t.fresh } ∧ (wrapOf t e).st = if engPanelOpen s e then .waking else .stopped)
    ∧ (bitOf x.ctl 1 = true → x.st = .reset → engFree (engPut s e { x with ctl := setBit x.ctl 1 false }) e = true →
        ∃ t, exec (.engHoldReset e false) s = .next t ∧ (eng t e).pc = fld x.ctl 25 16 ∧
          (eng t e).st = (if bitOf x.ctl 0 then .running else .halted) ∧ t = { s with engines := t.engines, wraps := t.wraps })
    ∧ (bitOf x.wdt 0 = true → x.st ≠ .reset → (x.st ≠ .halted ∨ bitOf x.wdt 3 = false) →
        (bitOf x.wdt 1 = true → x.wdFirst = false → ∃ t, exec (.watchdogExpire e) s = .next t ∧ EngOnly s t e ∧
          eng t e = { x with ipend := setBit x.ipend 5 true, wdFirst := true }) ∧
        ((bitOf x.wdt 1 = false ∨ x.wdFirst = true) → bitOf x.wdt 2 = false → stage s < 22 →
          ∃ t, exec (.watchdogExpire e) s = .next t ∧ EngCleared x (eng t e) 1 ∧
            (ReadsOnly s e → EngKept x (eng t e) ∧ (∀ k, k ≠ e.val → eng t k = eng s k) ∧ t.fresh = s.fresh) ∧
            t.rst.narrow = s.rst.narrow ++ [(1, 0, e.val)] ∧
            t = { s with engines := t.engines, wraps := t.wraps, noc := t.noc, rst := { s.rst with narrow := t.rst.narrow }, fresh := t.fresh }))
    ∧ (∀ v, ∃ t, exec (.engWdtWrite e v) s = .next t ∧ EngOnly s t e ∧
        eng t e = { x with wdt := v &&& 0x000000FFFFFFFF0F, wdFirst := x.wdFirst && !bitOf v 0 })
    ∧ (x.st ≠ .reset → ∃ t, exec (.engIntHost e) s = .next t ∧ EngOnly s t e ∧
        eng t e = { x with ipend := setBit x.ipend 4 true })

/-- R152 and R167 to R174. -/
def Obligations.EngVerdicts : Prop :=
  ∀ (e : EngId) (s : State),
    let x := eng s e
    (∀ pre post (q : Xfer), x.xfers = pre ++ q :: post → q.len ≤ q.got → q.early = none →
      (∀ p, p ∈ pre → p.got < p.len ∨ p.early ≠ none) →
      ∃ t, exec (.xferComplete e) s = .next t ∧ EngOnly s t e ∧
        eng t e = { x with xfers := pre ++ post, ipend := setBit x.ipend (if q.err then 2 else 1) true })
    ∧ (∀ v : Fin 4, verdictDue x v 1 = true → x.vids.getLsbD v = true →
      ∃ t, exec (.verdictGood e v) s = .next t ∧ EngOnly s t e ∧ LanesBy x (eng t e) (laneGood v) ∧
        (eng t e).vids = x.vids &&& ~~~ (BitVec.ofNat 4 (2 ^ v.val)) ∧ (eng t e).bad = x.bad ∧ (eng t e).vbad = x.vbad ∧
        (eng t e).vb = x.vb.map (fun b => { b with ws := b.ws.map (laneGood v) }))
    ∧ (∀ v : Fin 4, verdictDue x v 2 = true → x.vids.getLsbD v = true →
      ∃ t, exec (.verdictBad e v) s = .next t ∧ EngOnly s t e ∧ LanesBy x (eng t e) (laneBad v) ∧
        (eng t e).vids = x.vids &&& ~~~ (BitVec.ofNat 4 (2 ^ v.val)) ∧ (eng t e).bad = x.bad ||| BitVec.ofNat 4 (2 ^ v.val) ∧
        (eng t e).vbad = x.vbad ||| BitVec.ofNat 4 (2 ^ v.val) ∧
        (∀ b, b ∈ (eng t e).vb → ∃ c, c ∈ x.vb ∧ b.addr = c.addr ∧ c.ws.all (fun l => !l.pend.getLsbD v) = true) ∧
        (∀ q, q ∈ x.xfers → q.early = some v.val → { q with err := true, early := none } ∈ (eng t e).xfers))
    ∧ (∀ b rest, x.vb = b :: rest → pendOf b.ws = 0 → bitOf x.bxd 63 = false → b.addr + b.ws.length ≤ 2048 →
      ∃ t, exec (.verdictRetire e) s = .next t ∧ EngOnly s t e ∧
        (∀ a, tget {} (eng t e).dm a = if b.addr ≤ a ∧ a < b.addr + b.ws.length then b.ws.getD (a - b.addr) {} else tget {} x.dm a) ∧
        eng t e = { x with vb := rest, dm := (eng t e).dm, raq := (eng t e).raq })
    ∧ (∀ (g : Fin 8) (flips : List (BitVec 80)), x.st = .running → 4 < tget 0 x.lastKind g → tget 0 x.lastKind g < 8 →
      (tget [] x.raq g).length ≤ 1 → (∀ r, r ∈ tget [] x.raq g → r.ws.length ≤ 4) →
      ∃ t, exec (.runAheadFetch e g flips) s = .next t ∧ EngOnly s t e ∧ eng t e = { x with raq := (eng t e).raq } ∧
        (∀ h, h ≠ g.val → tget [] (eng t e).raq h = tget [] x.raq h) ∧
        ∃ r, tget [] (eng t e).raq g = tget [] x.raq g ++ [r] ∧ r.addr = (raNext x g).1 ∧ r.lk = (raNext x g).2)

/-- R187, R194 to R198 and R205, for words whose code is clean. -/
def Obligations.BankAccess : Prop :=
  ∀ (b : BankId) (i : Fin 2) (addr : BitVec 16) (w : PWord) (be : BitVec 8) (s : State),
    let a := addr.toNat / 8
    let o := addr.toNat % 8
    let x := bank s b
    let old := bankVal x a
    let quiet := fun (t : State) => BankOnly s t b ∧ bank t b = { x with outs := (bank t b).outs, last := (bank t b).last }
    let known := fun (t : State) => { x with last := (bank t b).last }
    let rd := bankDual b = true ∨ i = 0
    let wr := bankDual b = true ∨ i = 1
    (BankOpen s b → rd → bankMode x = false → ∃ t, exec (.bankRead b i false addr 0) s = .next t ∧ quiet t ∧ Answers x (bank t b) i old 0)
    ∧ (BankOpen s b → rd → bankMode x = true → ∃ t, exec (.bankRead b i false addr 0) s = .next t ∧ quiet t ∧
        Answers x (bank t b) i { val := old.val.rotateRight (8 * o), pois := old.pois } 0)
    ∧ (BankOpen s b → wr → bankMode x = false → ∃ t m, exec (.bankWrite b i false addr w be 0) s = .next t ∧ BankOnly s t b ∧
        Merged old w m be ∧ Stored (known t) (bank t b) a m ∧ Answers x (bank t b) i zeroWord 0)
    ∧ (BankOpen s b → wr → bankMode x = true → ∃ t m, exec (.bankWrite b i false addr w be 0) s = .next t ∧ BankOnly s t b ∧
        Merged old { w with val := w.val.rotateLeft (8 * o) } m (be.rotateLeft o) ∧ Stored (known t) (bank t b) a m ∧
        Answers x (bank t b) i zeroWord 0)
    ∧ (BankOpen s b → wr → bankMode x = false → ∃ t, exec (.bankFadd b i false addr w 0) s = .next t ∧ BankOnly s t b ∧
        Stored (known t) (bank t b) a { val := old.val + w.val, pois := old.pois || w.pois } ∧ Answers x (bank t b) i old 0)
    ∧ (BankOpen s b → wr → bankMode x = false → ∃ t, exec (.bankSwap b i false addr w 0) s = .next t ∧ BankOnly s t b ∧
        Stored (known t) (bank t b) a w ∧ Answers x (bank t b) i old 0)
    ∧ (BankOpen s b → rd → bankMode x = false → ∃ t, exec (.bankReserveRead b i false addr 0) s = .next t ∧ BankOnly s t b ∧
        (let others := x.resv.filter (fun r => r.req != 0x10000)
         bank t b = { x with outs := (bank t b).outs, last := (bank t b).last,
                             resv := others.drop (if 4 ≤ others.length then 1 else 0) ++ [{ req := 0x10000, word := a }] }) ∧
        Answers x (bank t b) i old 0)
    ∧ (BankOpen s b → wr → bankMode x = false → { req := 0x10000, word := a } ∈ x.resv →
        ∃ t, exec (.bankConditionalWrite b i false addr w 0) s = .next t ∧ BankOnly s t b ∧ Stored (known t) (bank t b) a w ∧
          Answers x (bank t b) i zeroWord 0)
    ∧ (BankOpen s b → wr → bankMode x = false → { req := 0x10000, word := a } ∉ x.resv →
        ∃ t, exec (.bankConditionalWrite b i false addr w 0) s = .next t ∧ quiet t ∧ Answers x (bank t b) i zeroWord 1)
    ∧ (BankOpen s b → bankDual b = false →
        (i = 1 → ∃ t, exec (.bankRead b i false addr 0) s = .next t ∧ quiet t ∧ Answers x (bank t b) i zeroWord 3) ∧
        (i = 0 → ∃ t, exec (.bankWrite b i false addr w be 0) s = .next t ∧ quiet t ∧ Answers x (bank t b) i zeroWord 3))
    ∧ (BankOpen s b → bankMode x = true →
        (∃ t, exec (.bankFadd b i false addr w 0) s = .next t ∧ quiet t ∧ Answers x (bank t b) i zeroWord 3) ∧
        (∃ t, exec (.bankSwap b i false addr w 0) s = .next t ∧ quiet t ∧ Answers x (bank t b) i zeroWord 3) ∧
        (∃ t, exec (.bankReserveRead b i false addr 0) s = .next t ∧ quiet t ∧ Answers x (bank t b) i zeroWord 3) ∧
        (∃ t, exec (.bankConditionalWrite b i false addr w 0) s = .next t ∧ quiet t ∧ Answers x (bank t b) i zeroWord 3))
    ∧ (ownerFabric x.own b = false → ∃ t, exec (.bankWrite b i false addr w be 0) s = .next t ∧ quiet t ∧
        Answers x (bank t b) i zeroWord 0)
    ∧ (ownerFabric x.own b = true → fld x.cfg 36 32 < 16 → bankClocked s b = true → bankState s b = 0 → x.busy = true →
        ∃ t, exec (.bankWrite b i false addr w be 0) s = .next t ∧ quiet t ∧ Answers x (bank t b) i zeroWord 3)
    ∧ (BankOpen s b → bankMode x = false → ∀ l, x.last = some l → l.i ≠ i.val → l.word = a →
        (l.write = true → l.plain = false →
          (∃ t, exec (.bankRead b i true addr 0) s = .next t ∧ t = s) ∧ ∃ t, exec (.bankWrite b i true addr w 0xFF 0) s = .next t ∧ t = s) ∧
        (∃ t, exec (.bankFadd b i true addr w 0) s = .next t ∧ t = s) ∧ (∃ t, exec (.bankSwap b i true addr w 0) s = .next t ∧ t = s) ∧
        (be ≠ 0xFF → ∃ t, exec (.bankWrite b i true addr w be 0) s = .next t ∧ t = s) ∧
        (rd → l.write = true → l.plain = true → l.valid = true → rowValid x a = true → ∃ t, exec (.bankRead b i true addr 0) s = .next t ∧
          BankOnly s t b ∧ (∀ c, bankVal (bank t b) c = bankVal x c) ∧ Answers x (bank t b) i l.old 0) ∧
        (wr → l.write = true → l.plain = true → i = 0 → ∃ t, exec (.bankWrite b i true addr w 0xFF 0) s = .next t ∧ quiet t ∧
          Answers x (bank t b) i zeroWord 0))

/-- R202, R203, R208 and R222. -/
def Obligations.BankErrors : Prop :=
  ∀ (b : BankId) (i : Fin 2) (addr : BitVec 16) (flip : BitVec 80) (s : State),
    let a := addr.toNat / 8
    let x := bank s b
    let w := rawGet x a
    let asked := BankOpen s b ∧ (bankDual b = true ∨ i = 0) ∧ bankMode x = false ∧ rowValid x a = true
    let ce := setFld (satFld x.err 63 48 1) 12 0 a
    let again := wrongBits flip = 2 ∨ (x.ceSeen = true ∧ fld x.err 12 0 = a)
    let fixed := { x with err := ce, ceSeen := true, wbs := x.wbs ++ [(a, w)] }
    (asked → (wrongBits flip = 1 ∨ wrongBits flip = 2) → ¬ (bitOf x.cfg 4 = true ∧ again) →
      ∃ t, exec (.bankRead b i false addr flip) s = .next t ∧ BankOnly s t b ∧ Answers x (bank t b) i w 0 ∧
        bank t b = { fixed with outs := (bank t b).outs, last := (bank t b).last })
    ∧ (asked → (wrongBits flip = 1 ∨ wrongBits flip = 2) → bitOf x.cfg 4 = true → again →
        ∀ k, k < 4 → bitOf (tget 0 x.remap k) 63 = false → (∀ j, j < k → bitOf (tget 0 x.remap j) 63 = true) →
        ∃ t, exec (.bankRead b i false addr flip) s = .next t ∧ BankOnly s t b ∧ Answers x (bank t b) i w 0 ∧
          (let y := bank t b
           tget 0 y.remap k = mkWord [(63, 63, 1), (59, 58, 1), (12, 0, a)] ∧ (∀ j, j ≠ k → tget 0 y.remap j = tget 0 x.remap j) ∧
           (∀ c, bankVal y c = bankVal x c) ∧ y = { fixed with outs := y.outs, last := y.last, remap := y.remap, spare := y.spare, resv := x.resv.filter (fun r => r.word != a) }))
    ∧ (asked → wrongBits flip = 3 → ∃ t, exec (.bankRead b i false addr flip) s = .next t ∧ UeLogged s t b a ∧
        (let r : PWord := { val := w.val ^^^ flip.setWidth 64, pois := true }
         let y := bank t b
         Answers x y i r 0 ∧ y = { x with outs := y.outs, last := y.last, err := y.err, wbs := x.wbs ++ [(a, r)] } ∧
         fld y.err 47 40 = min 255 (fld x.err 47 40 + 1) ∧ fld y.err 28 16 = a ∧ bitOf y.err 36 = true ∧
         fld y.err 63 48 = fld x.err 63 48 ∧ fld y.err 12 0 = fld x.err 12 0))
    ∧ (∀ p rest, x.wbs = p :: rest →
        (∃ t, exec (.correctionWriteBack b) s = .next t ∧ BankOnly s t b ∧ Stored x (bank t b) p.1 p.2) ∧
        (∃ t, exec (.writeBackForce b) s = .next t ∧ BankOnly s t b ∧ Stored x (bank t b) p.1 p.2))
    ∧ (∃ t, exec (.bankErrClear b) s = .next t ∧ BankOnly s t b ∧
        (let y := bank t b
         y = { x with err := y.err } ∧ fld y.err 63 48 = 0 ∧ fld y.err 47 40 = 0 ∧ bitOf y.err 36 = bitOf x.err 36 ∧
         fld y.err 28 16 = fld x.err 28 16 ∧ fld y.err 12 0 = fld x.err 12 0))

/-- R193, R199, R201, R207 and R219. -/
def Obligations.BankControl : Prop :=
  ∀ (b : BankId) (init : BitVec 16) (v : Word) (k : Fin 4) (word : Fin 8192) (s : State),
    let x := bank s b
    let o := ownerOf v
    let granted := (init.toNat < 16 ∨ (init.toNat = 0x10 ∧ fld s.dbg.ctl 63 62 = 2) ∨ portOfPanel (bankPanel b) init.toNat = true)
      ∧ (init.toNat < 16 ∨ bankLoading s b = false)
    let legal := (o.kind = 1 → o.sel < 32) ∧ (o.kind = 2 → o.sel < 480)
    let e := tget 0 x.remap k
    (granted → legal → x.busy = false → o ≠ x.own → ∃ t, exec (.bankHandover init b v) s = .next t ∧ BankOnly s t b ∧
      bank t b = { x with target := o, busy := true })
    ∧ (granted → legal → x.busy = true → ∃ t, exec (.bankHandover init b v) s = .next t ∧ BankOnly s t b ∧
        bank t b = { x with target := o })
    ∧ (granted → legal → x.busy = false → o = x.own → ∃ t, exec (.bankHandover init b v) s = .next t ∧ BankOnly s t b ∧ bank t b = x)
    ∧ (¬ legal ∨ ¬ granted → exec (.bankHandover init b v) s = .next s)
    ∧ (x.busy = true → ∃ t, exec (.handoverComplete b) s = .next t ∧
        t = { s with banks := t.banks, noc := t.noc, dbg := { s.dbg with xtp := t.dbg.xtp }, fresh := t.fresh } ∧
        (bank t b).own = x.target ∧ (bank t b).busy = false ∧ (bank t b).resv = [] ∧
        ((∀ r ∈ s.noc.accepted, bankMine b r = true → r.isRead = true) → t.fresh = s.fresh ∧
          (∀ m, m ≠ b.val → bank t m = bank s m) ∧ bank t b = { x with own := x.target, busy := false, resv := [], outs := if x.target = x.own then x.outs else [] }) ∧
        t.noc = { s.noc with accepted := s.noc.accepted.filter (fun r => !bankMine b r),
                             responses := s.noc.responses ++ (s.noc.accepted.filter (bankMine b)).map (fun r => r.err 3) })
    ∧ (init.toNat < 16 → ∃ t, exec (.bankModeWrite init b v) s = .next t ∧ BankOnly s t b ∧
        (let y := bank t b
         let taken := x.own.kind = 0 ∧ bitOf v 0 ≠ bitOf x.cfg 0
         y = { x with cfg := y.cfg, resv := y.resv } ∧ y.resv = (if taken then [] else x.resv) ∧
         fld y.cfg 47 40 = fld v 47 40 ∧ fld y.cfg 9 8 = fld v 9 8 ∧ bitOf y.cfg 4 = bitOf v 4 ∧
         fld y.cfg 36 32 = fld x.cfg 36 32 ∧ bitOf y.cfg 0 = (if taken then bitOf v 0 else bitOf x.cfg 0)))
    ∧ (bitOf e 63 = false → ∃ t, exec (.remapSet b k word 0) s = .next t ∧ BankOnly s t b ∧
        (let y := bank t b
         tget 0 y.remap k = mkWord [(63, 63, 1), (12, 0, word.val)] ∧ (∀ j, j ≠ k.val → tget 0 y.remap j = tget 0 x.remap j) ∧
         (∀ c, bankVal y c = bankVal x c) ∧
         y = { x with remap := y.remap, spare := y.spare, resv := x.resv.filter (fun r => r.word != word.val) }))
    ∧ (bitOf e 63 = true → fld e 59 58 ≠ 2 → (∀ j, j < 4 → j ≠ k.val → bitOf (tget 0 x.remap j) 63 = true →
          fld (tget 0 x.remap j) 12 0 ≠ fld e 12 0) →
        ∃ t, exec (.remapClear b k 0) s = .next t ∧ BankOnly s t b ∧
        (let y := bank t b
         tget 0 y.remap k = mkWord [(12, 0, fld e 12 0)] ∧ (∀ j, j ≠ k.val → tget 0 y.remap j = tget 0 x.remap j) ∧
         (∀ c, bankVal y c = bankVal x c) ∧
         y = { x with remap := y.remap, spare := y.spare, words := y.words,
                      resv := x.resv.filter (fun r => r.word != fld e 12 0), wbs := x.wbs.filter (fun p => p.1 != fld e 12 0) }))
    ∧ (bitOf e 63 = true → fld e 59 58 = 2 → (∃ t, exec (.remapClear b k 0) s = .next t ∧ BankOnly s t b ∧ bank t b = x) ∧
        ∃ t, exec (.remapSet b k word 0) s = .next t ∧ BankOnly s t b ∧ bank t b = x)
    ∧ (∀ p q : List Resv, ∀ r, x.resv = p ++ r :: q → r.word = word.val → (∀ c ∈ p, c.word ≠ word.val) →
        ∃ t, exec (.reservationLapse b word) s = .next t ∧ BankOnly s t b ∧ bank t b = { x with resv := p ++ q })

/-- R210 to R217. -/
def Obligations.BankService : Prop :=
  ∀ (b : BankId) (s : State),
    let x := bank s b
    let phase := bistPhase x
    let word := fun (j : Nat) => 256 * bistRegion x + j
    (∀ us a, BankSteps s b → bitOf x.scrub 63 = true → twf false x.valid = true → x.scrubPos ≤ a → ScrubSees x a →
      (∀ c, x.scrubPos ≤ c → c < a → ¬ ScrubSees x c) → ∃ t, exec (.scrubRead b 0 us) s = .next t ∧ BankOnly s t b ∧
        ((∃ c, a < c ∧ ScrubSees x c) → bank t b = { x with scrubPos := a + 1 }) ∧
        ((∀ c, a < c → ¬ ScrubSees x c) → (let y := bank t b
          y = { x with scrubPos := 0, scrub := y.scrub } ∧ fld y.scrub 39 32 = (fld x.scrub 39 32 + 1) % 256 ∧
          fld y.scrub 23 0 = min us 0xFFFFFF ∧ bitOf y.scrub 63 = true ∧
          bitOf y.scrub 62 = (bitOf x.scrub 62 || decide (1000 * max 1 (fld x.scrub 47 40) < us)))))
    ∧ (bitOf x.scrub 63 = true → ∃ t, exec (.scrubStarve b) s = .next t ∧ BankOnly s t b ∧
        bank t b = { x with scrub := setBit x.scrub 62 true })
    ∧ (∀ mode : Fin 4, mode = 1 ∨ mode = 2 → phase = 0 → fld x.bist 63 62 = 0 → ∃ t, exec (.bistStart b mode) s = .next t ∧
        BankOnly s t b ∧ (let y := bank t b
          y = { x with bist := y.bist } ∧ fld y.bist 63 62 = mode.val ∧ bistRegion y = 0 ∧ bistPhase y = 0 ∧
          fld y.bist 61 60 = fld x.bist 61 60 ∧ fld y.bist 47 32 = fld x.bist 47 32))
    ∧ (∀ mm, BankSteps s b → phase = 0 → (wrapOf s (bankGroupKey b)).st = WrapSt.running → (fld x.bist 63 62 = 1 ∨ fld x.bist 63 62 = 2) → ∃ t, exec (.bistStep b mm 0) s = .next t ∧
        BankOnly s t b ∧ bank t b = { x with bist := setFld x.bist 59 58 1, bistPos := 0, bistFails := [], inBuf := [], buf := [] })
    ∧ (∀ mm j, BankSteps s b → phase = 1 → j < 256 → tget false x.inBuf j = false → (∀ i, i < j → tget false x.inBuf i = true) →
        ∃ t, exec (.bistStep b mm 0) s = .next t ∧ BankOnly s t b ∧ (let y := bank t b
          y = { x with buf := y.buf, inBuf := y.inBuf } ∧ (∀ c, bankVal y c = bankVal x c) ∧ tget false y.inBuf j = true ∧
          (∀ i, i ≠ j → tget false y.inBuf i = tget false x.inBuf i)))
    ∧ (∀ mm, BankSteps s b → phase = 1 → (∀ i, i < 256 → tget false x.inBuf i = true) → ∃ t, exec (.bistStep b mm 0) s = .next t ∧
        BankOnly s t b ∧ bank t b = { x with bist := setFld x.bist 59 58 2, bistPos := 0 })
    ∧ (∀ mm, BankSteps s b → phase = 2 → x.bistPos < 2559 → ∃ t, exec (.bistStep b mm 0) s = .next t ∧ BankOnly s t b ∧
        (let y := bank t b
         let c := word (marchWord x.bistPos).1
         y = { x with bistPos := x.bistPos + 1, bist := y.bist, bistFails := y.bistFails } ∧
         if mm = true ∧ (marchWord x.bistPos).2 = true then y.bistFails = (if c ∈ x.bistFails then x.bistFails else x.bistFails ++ [c]) ∧
           bitOf y.bist 61 = true ∧ (x.bistFails = [] → fld y.bist 28 16 = c % 8192) ∧ (x.bistFails ≠ [] → y.bist = setBit x.bist 61 true)
         else y.bistFails = x.bistFails ∧ y.bist = x.bist))
    ∧ (BankSteps s b → phase = 2 → x.bistPos = 2559 → x.bistFails = [] → ∃ t, exec (.bistStep b false 0) s = .next t ∧
        BankOnly s t b ∧ bank t b = { x with bist := setFld x.bist 59 58 3, bistPos := 0 })
    ∧ (∀ mm j, BankSteps s b → phase = 3 → j < 256 → tget false x.inBuf j = true → (∀ i, i < j → tget false x.inBuf i = false) →
        ∃ t, exec (.bistStep b mm 0) s = .next t ∧ BankOnly s t b ∧ (let y := bank t b
          (∀ c, bankVal y c = bankVal x c) ∧ (∀ i, tget false y.inBuf i = if i = j then false else tget false x.inBuf i) ∧
          y = { x with words := y.words, spare := y.spare, buf := y.buf, inBuf := y.inBuf,
                       resv := x.resv.filter (fun r => r.word != word j) }))
    ∧ (∀ mm, BankSteps s b → phase = 3 → (∀ i, i < 256 → tget false x.inBuf i = false) → ∃ t, exec (.bistStep b mm 0) s = .next t ∧
        BankOnly s t b ∧ (let y := bank t b
          y = { x with bist := y.bist, bistPos := 0, bistFails := [] } ∧
          (x.bistFails ≠ [] ∨ fld x.bist 63 62 = 0 ∨ (bistRegion x = 31 ∧ fld x.bist 63 62 = 1) →
            fld y.bist 63 62 = 0 ∧ bistPhase y = 0 ∧ bistRegion y = bistRegion x) ∧
          (x.bistFails = [] → fld x.bist 63 62 = 2 → bistPhase y = 1 ∧ bistRegion y = (bistRegion x + 1) % 32 ∧
            fld y.bist 47 32 = (fld x.bist 47 32 + (if bistRegion x = 31 then 1 else 0)) % 65536)))
    ∧ (phase = 3 → ∃ t, exec (.bistStop b) s = .next t ∧ BankOnly s t b ∧ fld (bank t b).bist 63 62 = 0 ∧
        bistPhase (bank t b) = 0 ∧ (∀ c, bankVal (bank t b) c = bankVal x c))
    ∧ (∀ req : Fin 4, phase = 0 → bankCur x ≠ 3 → req ≠ 3 → bankCur x ≠ req.val → (domOf s (0x200 + b.val / 8)).cur < 2 →
        ∃ t, exec (.bankPowerRequest b req) s = .next t ∧ BankOnly s t b ∧ (let y := bank t b
          bankCur y = 3 ∧ fld y.pwr 1 0 = req.val ∧ y.next = req.val ∧ y.prev = bankCur x ∧ bitOf y.pwr 2 = bitOf x.pwr 2 ∧
          y.resv = (if req = 0 then x.resv else []) ∧ y.woken = false ∧
          y = { x with pwr := y.pwr, next := y.next, prev := y.prev, resv := y.resv, woken := false, scrubPos := if req = 0 then x.scrubPos else 0 }))
    ∧ (bankCur x = 3 → x.next = 0 → fld x.pwr 1 0 = 0 → s.noc.accepted.filter (bankMine b) = [] →
        ∃ t, exec (.bankPowerDone b) s = .next t ∧
          bank t b = { (if x.prev = 2 then bankClear x else x) with pwr := setFld x.pwr 5 4 0, prev := 0 } ∧ (∀ m, m ≠ b.val → bank t m = bank s m) ∧ t = { s with banks := t.banks })
    ∧ (∀ n, bankCur x = 3 → x.next = n → (n = 1 ∨ n = 2) → fld x.pwr 1 0 = n → x.woken = false → x.prev ≠ 2 →
        ∃ t, exec (.bankPowerDone b) s = .next t ∧ bankCur (bank t b) = n ∧ t = { s with banks := t.banks, noc := t.noc, fresh := t.fresh } ∧
          ((∀ r ∈ s.noc.accepted, bankMine b r = true → r.isRead = true) → t.fresh = s.fresh ∧
            bank t b = { x with pwr := setFld x.pwr 5 4 n, prev := 0 } ∧ ∀ m, m ≠ b.val → bank t m = bank s m) ∧
          t.noc.responses = s.noc.responses ++ (s.noc.accepted.filter (bankMine b)).map (fun r => r.err 3))
    ∧ (phase = 0 → x.woken = true → bankCur x = 0 → fld x.pwr 1 0 = 1 → ∃ t, exec (.bankLingerExpire b) s = .next t ∧
        BankOnly s t b ∧ bank t b = { x with pwr := setFld x.pwr 5 4 3, next := 1, prev := 0, resv := [], scrubPos := 0, woken := false })

/-- R192 and R195 for requests from the network whose words read clean. -/
def Obligations.BankServes : Prop :=
  ∀ (b : BankId) (r : Req) (p q : List Req) (s : State),
    bankState s b = 0 → bankClocked s b = true → s.noc.accepted = p ++ r :: q → bankMine b r = true → (∀ c ∈ p, bankMine b c = false) →
    (∀ i, r.flips.getD i 0 = 0) →
    ∃ t ans, exec (.bankPortWaitExpire b) s = .next t ∧
      t = { s with banks := t.banks, noc := t.noc, fresh := t.fresh, dbg := { s.dbg with xtp := t.dbg.xtp } } ∧
      (∀ m, m ≠ b.val → bank t m = bank s m) ∧ BankDone (bank s b) (bank t b) r ans ∧ ans.init = r.h.init.toNat ∧
      ans.tag = r.h.tag.toNat ∧ t.noc = { s.noc with accepted := p ++ q, responses := s.noc.responses ++ [ans] }

/-- R235 to R255 for each request command. -/
def Obligations.NocRequests : Prop :=
  ∀ (h : Hdr) (data : List PWord) (v : ReqEnv) (s : State),
    (∀ x t w d (f : BitVec 80), xferHit t w = true →
      (f = 0 → ∃ l, l = tget {} x.dm ((t.laddr + (w - t.addr / 8)) % 2048) ∧ xferWord s.fresh x t w d f = { val := l.val, pois := l.pois }) ∧
      ((bitsOf 80 f.toNat).length = 3 → (xferWord s.fresh x t w d f).pois = true)) ∧
    (∃ t, exec (.nocRd h v) s = .next t ∧ Asked s { cmd := .rd, h := h, data := [], flips := v.flips, src := v.src } v.busy t)
    ∧ (∃ t, exec (.nocRde h v) s = .next t ∧ Asked s { cmd := .rde, h := h, data := [], flips := v.flips, src := v.src } v.busy t)
    ∧ (∃ t, exec (.nocWr h data v) s = .next t ∧ Asked s { cmd := .wr, h := h, data := data, flips := v.flips, src := v.src } v.busy t)
    ∧ (∃ t, exec (.nocWri1 h v) s = .next t ∧ Asked s { cmd := .wri1, h := h, data := [], flips := v.flips, src := v.src } v.busy t)
    ∧ (∃ t, exec (.nocWri2 h v) s = .next t ∧ Asked s { cmd := .wri2, h := h, data := [], flips := v.flips, src := v.src } v.busy t)
    ∧ (∃ t, exec (.nocWri4 h v) s = .next t ∧ Asked s { cmd := .wri4, h := h, data := [], flips := v.flips, src := v.src } v.busy t)
    ∧ (∃ t, exec (.nocWri8 h v) s = .next t ∧ Asked s { cmd := .wri8, h := h, data := [], flips := v.flips, src := v.src } v.busy t)
    ∧ (∃ t, exec (.nocFadd h v) s = .next t ∧ Asked s { cmd := .fadd, h := h, data := [], flips := v.flips, src := v.src } v.busy t)
    ∧ (∃ t, exec (.nocSwap h v) s = .next t ∧ Asked s { cmd := .swap, h := h, data := [], flips := v.flips, src := v.src } v.busy t)
    ∧ (∃ t, exec (.nocRsvrd h v) s = .next t ∧ Asked s { cmd := .rsvrd, h := h, data := [], flips := v.flips, src := v.src } v.busy t)
    ∧ (∃ t, exec (.nocCwr h v) s = .next t ∧ Asked s { cmd := .cwr, h := h, data := [], flips := v.flips, src := v.src } v.busy t)

/-- R237 to R240, R247, R254. -/
def Obligations.NocResponses : Prop :=
  ∀ (init : BitVec 16) (tag : BitVec 10) (user : List PWord) (v : RespEnv) (s : State),
    (∃ t, exec (.nocRdr init tag user v) s = .next t ∧
      ∀ p, p.init = init.toNat → p.tag = tag.toNat → p.kind = .rdr → Delivered s p v.ready t)
    ∧ (∃ t, exec (.nocWra init tag v) s = .next t ∧
        ∀ p, p.init = init.toNat → p.tag = tag.toNat → p.kind = .wra → Delivered s p v.ready t)
    ∧ (∃ t, exec (.nocAtr init tag v) s = .next t ∧
        ∀ p, p.init = init.toNat → p.tag = tag.toNat → p.kind = .atr → Delivered s p v.ready t)
    ∧ (∃ t, exec (.nocErr init tag v) s = .next t ∧
        ∀ p, p.init = init.toNat → p.tag = tag.toNat → p.kind = .err → Delivered s p v.ready t)
    ∧ (∀ r, s.noc.responses = [] → s.noc.accepted = [r] → s.noc.transit = [] → 6000 ≤ r.unit → r.unit < 8048 →
        portInReset s (r.unit - 6000) = false → r.h.init = init → r.h.tag = tag →
        way s (r.slot / 16) (initPlace init.toNat / 16) = .waits →
        (r.isRead = true → ∃ t, exec (.nocRdr init tag user v) s = .next t ∧
          t = { s with noc := { s.noc with accepted := [], responses := [
            { r.ack with kind := .rdr, data := (List.range (4 * r.h.len)).map (fun i => user.getD i zeroWord) }] } }) ∧
        (r.isWrite = true → ∃ t, exec (.nocWra init tag v) s = .next t ∧
          t = { s with noc := { s.noc with accepted := [], responses := [r.ack] } }))

/-- R240 to R264. -/
def Obligations.NocControl : Prop :=
  ∀ (init : BitVec 16) (tag : BitVec 10) (r : RouterId) (slot : Fin 16) (l : Fin 4) (k : Nat) (e : EngId) (s : State),
    let i := init.toNat
    let x := routerOf s r
    let q := linkPeer r l
    let bothEnds := fun (t : State) (b : Bool) => bitOf (routerOf t r).link (4 + l) = b ∧ bitOf (routerOf t q).link (4 + (l.val + 2) % 4) = b
    let place := r.val / 16 + 256 * (r.val % 16) + 65536 * l.val
    (∀ o rest, takeFirst (fun (c : Outst) => c.init == i && c.tag == tag.toNat) s.noc.outst = some (o, rest) →
      fld (routerOf s (initPlace i / 16)).hold 47 32 ≠ 0 → ∃ t, exec (.responseTimeout init tag) s = .next t ∧
        (let p : Resp := { init := i, tag := tag.toNat, kind := .err, code := 8, cls := o.cls, addr := o.addr, len := o.len, own := true, id := o.id }
         t = { s with noc := { s.noc with outst := rest, dead := s.noc.dead ++ [(i, tag.toNat)], responses := s.noc.responses ++ [p] } }))
    ∧ (s.noc.iface = [] → ∃ t, exec (.deadTagExpire init tag) s = .next t ∧
        t = { s with noc := { s.noc with dead := s.noc.dead.filter (fun d => d ≠ (i, tag.toNat)) } })
    ∧ (s.noc.iface = [] → ∃ t, exec (.c0GapExpire init) s = .next t ∧
        t = { s with noc := { s.noc with gap := s.noc.gap.filter (fun d => d ≠ initPlace i) } })
    ∧ (let mine := s.noc.held.filter (fun c => c.slot == 16 * r.val + slot.val)
       mine ≠ [] → s.noc.transit = [] → ∃ t, exec (.holdTimeout r slot) s = .next t ∧
        t = { s with noc := t.noc, routers := t.routers } ∧ (∀ m, m ≠ r.val → routerOf t m = routerOf s m) ∧
        routerOf t r = { x with hold := setBit x.hold (48 + slot) true } ∧
        t.noc = { s.noc with held := s.noc.held.filter (fun c => c.slot != 16 * r.val + slot.val),
                             responses := s.noc.responses ++ mine.map (fun c => c.err 7) })
    ∧ (∀ row, linkExists r l = true → linkClosed s r l = false → linkDown s r l = false →
        ∃ t, exec (.linkCrcError r l row) s = .next t ∧ t = { s with routers := t.routers } ∧
          fld (routerOf t r).link 63 48 = min 65535 (fld x.link 63 48 + 1) ∧
          fld (routerOf t r).link 47 32 = min 65535 (fld x.link 47 32 + 1) ∧ fld (routerOf t r).link 31 16 = fld x.link 31 16 ∧
          (8 ≤ row → bothEnds t true) ∧
          (row < 8 → ((tget [] x.crcAt l).filter (fun c => decide (s.now < c + 1000))).length < 63 → bothEnds t false))
    ∧ (linkExists r l = true → linkDown s r l = true → nbit x.closed l = false → s.noc.transit = [] →
        (∃ t, exec (.linkRetrainDone r l) s = .next t ∧ bothEnds t false ∧ t.st.log.head? =
          some { us := s.now - s.st.began, cls := 0x0A, unit := r.val, detail := place } ∧ t = { s with routers := t.routers, st := t.st, svc := t.svc }) ∧
        (∃ t, exec (.linkRetrainFail r l) s = .next t ∧ linkClosed t r l = true ∧ nbit (routerOf t q).closed ((l.val + 2) % 4) = true ∧
          t.st.log.head? = some { us := s.now - s.st.began, cls := 0x0B, unit := r.val, detail := place } ∧
          t = { s with routers := t.routers, st := t.st, svc := t.svc }))
    ∧ (bitOf x.chg 63 = false → ∃ t, exec (.routerChange r) s = .next t ∧ RouterOnly s t r ∧
        routerOf t r = { x with chg := setBit x.chg 63 true })
    ∧ (bitOf x.chg 63 = true → ∃ t, exec (.routerChange r) s = .next t ∧ RouterOnly s t r ∧
        routerOf t r = { x with chg := setBit x.chg 61 true })
    ∧ (∀ cyc, bitOf x.chg 63 = true → cyc ≤ 599 → s.noc.transit = [] → fld x.porten 15 0 = fld x.portenF 15 0 →
        ∃ t, exec (.routerChangeDone r cyc) s = .next t ∧ RouterOnly s t r ∧
          (let y := routerOf t r
           y = { x with c0F := x.c0, qosF := x.qos, portenF := x.porten, img := [], chg := y.chg } ∧ bitOf y.chg 63 = false ∧
           fld y.chg 31 16 = (fld x.chg 31 16 + 1) % 65536 ∧ fld y.chg 47 32 = max (fld x.chg 47 32) cyc ∧
           fld y.chg 62 61 = fld x.chg 62 61))
    ∧ (bitOf x.chg 63 = true → x.img = [] → s.noc.transit = [] → ∃ t, exec (.routerChangeAbort r) s = .next t ∧
        RouterOnly s t r ∧ routerOf t r = { x with chg := setBit (setBit x.chg 63 false) 62 true })
    ∧ (k < (routerInits r).length → (∃ t, exec (.statsWindow r k) s = .next t ∧ RouterOnly s t r ∧
        (let c := tget {} x.stats k
         let d := tget {} (routerOf t r).stats k
         let n := min 0xFFFFFFFF c.window
         fld d.bytes 31 0 = n ∧ fld d.bytes 63 32 = max (fld c.bytes 63 32) n ∧ d = { c with bytes := d.bytes, window := 0 } ∧
         (∀ j, j ≠ k → tget {} (routerOf t r).stats j = tget {} x.stats j) ∧ routerOf t r = { x with stats := (routerOf t r).stats })) ∧
        (∃ t, exec (.statsClear r k) s = .next t ∧ RouterOnly s t r ∧ routerOf t r = { x with stats := (routerOf t r).stats } ∧
          tget {} (routerOf t r).stats k = { cfg := (tget {} x.stats k).cfg } ∧
          (∀ j, j ≠ k → tget {} (routerOf t r).stats j = tget {} x.stats j)))
    ∧ (∃ t, exec (.linkCountersClear r) s = .next t ∧ RouterOnly s t r ∧ (let y := routerOf t r
        y = { x with link := y.link } ∧ fld y.link 63 48 = 0 ∧ fld y.link 47 32 = 0 ∧ fld y.link 31 16 = 0 ∧
        fld y.link 7 4 = fld x.link 7 4))
    ∧ (∀ c p v, s.noc.accepted = p ++ c :: v → c.unit = e.val → (∀ g ∈ p, g.unit ≠ e.val) → reqEng c = e.val →
        (∀ j, c.flips.getD j 0 = 0) → c.isAtomic = false → (eng s e).st ≠ .running → (eng s e).st ≠ .waiting →
        ∃ t ans, exec (.engPortWaitExpire e) s = .next t ∧ EngDone (eng s e) (eng t e) c ans ∧
          t.noc = { s.noc with accepted := p ++ v, responses := s.noc.responses ++ [ans] } ∧
          t = { s with noc := t.noc, engines := t.engines, fresh := t.fresh } ∧ ∀ j, j ≠ e.val → eng t j = eng s j)

/-- R278: the decode of an offset can be inverted. -/
def Obligations.MemoryMapping : Prop :=
  ∀ (mm : MemMap) (slice off : Nat), mm.s ≤ 3 → slice < 8 / 2 ^ mm.s → off < 2 ^ (34 + mm.s) →
    let l := mm.locate slice off
    mm.address (slice * 2 ^ mm.s + l.sel) l.bank l.group l.line = slice * 2 ^ (34 + mm.s) + off / 64 * 64
    ∧ l.sel < 2 ^ mm.s ∧ l.bank < 128 ∧ l.line < 8 ∧ l.group = off / 2 ^ (9 + mm.k)

/-- R274, R283, R284 and R287 to R299. -/
def Obligations.McControl : Prop :=
  ∀ (m : McId) (s : State),
    let c := mcOf s m
    (∀ p rest, c.wbs = p :: rest → mcState c = 2 → ∃ t cs, exec (.lineWriteBack m) s = .next t ∧ t = { s with mcs := t.mcs, guards := t.guards } ∧
        (∀ k, k ≠ m.val → mcOf t k = mcOf s k ∧ grdOf t k = grdOf s k) ∧
        McIssued { c with wbs := c.wbs.filter (fun w => w.1 != p.1) } (mcOf t m) cs ∧ (let y := grdOf t m
          let at_ := if p.1 < 2 ^ 40 then dataPlace p.1 else metaHome (memMap s).gb (p.1 - 2 ^ 40)
          let bs := groupBlocks at_.2.1 [at_.2.2]
          moves cs = bs.map (.read at_.1) ++ bs.map (fun b => .write at_.1 b ((gsOf t m).block at_.1 b)) ∧
          if p.1 < 2 ^ 40 then y = { grdOf s m with lines := y.lines } ∧ tget [] y.lines p.1 = p.2 ∧ ∀ k, k ≠ p.1 → tget [] y.lines k = tget [] (grdOf s m).lines k
          else y = { grdOf s m with metas := y.metas } ∧ tget [] y.metas (p.1 - 2 ^ 40) = p.2 ∧
            ∀ k, k ≠ p.1 - 2 ^ 40 → tget [] y.metas k = tget [] (grdOf s m).metas k))
    ∧ (∀ b : Fin 128, (mcState c = 1 → ∃ t, exec (.mcRefresh m b) s = .next t ∧ McOnly s t m ∧ (let y := mcOf t m
          McIssued { c with refs := y.refs } y [.refreshAll] ∧ y.rows = [] ∧ ∀ j, j < 128 → tget 0 y.refs j = tget 0 c.refs j + 1)) ∧
        (mcState c = 2 ∨ mcState c = 3 ∨ mcState c = 6 → ∃ t, exec (.mcRefresh m b) s = .next t ∧ McOnly s t m ∧ (let y := mcOf t m
          McIssued { c with refs := y.refs } y [.refresh b] ∧ tget 0 y.rows b = 0 ∧ (∀ j, j ≠ b.val → tget 0 y.rows j = tget 0 c.rows j) ∧
          tget 0 y.refs b = tget 0 c.refs b + 1 ∧ ∀ j, j ≠ b.val → tget 0 y.refs j = tget 0 c.refs j)) ∧
        (mcState c = 0 ∨ mcState c = 4 ∨ mcState c = 5 → ∃ t, exec (.mcRefresh m b) s = .next t ∧ McOnly s t m ∧ mcOf t m = c))
    ∧ (mcState c ≠ 0 → ∃ t, exec (.mcTempHigh m) s = .next t ∧ McOnly s t m ∧ mcOf t m = { c with stat := setBit c.stat 58 true })
    ∧ (mcState c = 2 → fld c.ctl 63 48 ≠ 0 → McIdle s m → ∃ t, exec (.mcPowerDown m) s = .next t ∧ McOnly s t m ∧
        mcOf t m = { c with stat := setBit c.stat 59 true })
    ∧ (mcState c = 0 → bitOf c.cfg 32 = true → wideActive s.rst = false → s.rst.narrow = [] →
        (2 ≤ (domOf s (0x440 + m)).cur → (domOf s (0x440 + m)).cur ≤ 4 → ∃ t, exec (.mcTrainingStart m) s = .next t ∧
          mcState (mcOf t m) = 1 ∧ (domOf t (0x440 + m)).cur = 6 ∧ (domOf t (0x440 + m)).lastsrc = 1) ∧
        ((domOf s (0x440 + m)).cur ≤ 1 → ∃ t, exec (.mcTrainingStart m) s = .next t ∧ McOnly s t m ∧ mcOf t m = { c with stat := setFld c.stat 63 60 1 }))
    ∧ (∀ dur, mcState c = 1 → c.stopping = false → McIdle s m → ∃ t, exec (.mcTrainingDone m 0 dur) s = .next t ∧
        BecomesReady s t m { c with stat := setFld (setFld c.stat 55 48 0) 47 32 (min 0xFFFF dur) })
    ∧ (∀ (f : BitVec 8) dur, mcState c = 1 → f ≠ 0 → ∃ t, exec (.mcTrainingDone m f dur) s = .next t ∧
        BecomesFailed s t m { c with stat := setFld (setFld c.stat 55 48 f.toNat) 47 32 (min 0xFFFF dur) })
    ∧ (mcState c = 2 → ∃ t, exec (.mcRetrain m) s = .next t ∧ McOnly s t m ∧ mcState (mcOf t m) = 6 ∧
        fld (mcOf t m).stat 59 0 = fld c.stat 59 0 ∧ fld (mcOf t m).ctl 63 24 = fld c.ctl 63 24 ∧
        mcOf t m = { c with stat := (mcOf t m).stat, ctl := (mcOf t m).ctl })
    ∧ (mcState c ≠ 2 → ∃ t, exec (.mcRetrain m) s = .next t ∧ McOnly s t m ∧ (mcOf t m).stat = c.stat)
    ∧ (∀ dur, mcState c = 6 → c.stopping = false → McIdle s m → ∃ t, exec (.mcRetrainDone m 0 dur) s = .next t ∧
        BecomesReady s t m { c with stat := setFld (setFld c.stat 55 48 0) 47 32 (min 0xFFFF dur) })
    ∧ (∀ (f : BitVec 8) dur, mcState c = 6 → f ≠ 0 → ∃ t, exec (.mcRetrainDone m f dur) s = .next t ∧
        BecomesFailed s t m { c with stat := setFld (setFld c.stat 55 48 f.toNat) 47 32 (min 0xFFFF dur) })
    ∧ (∀ d rest, c.retry = d :: rest → ∃ t, exec (.commandConfirm m) s = .next t ∧ McOnly s t m ∧
        McIssued { c with retry := rest, replay := c.replay - 1, fails := if c.replay = 1 then 0 else c.fails } (mcOf t m) [])
    ∧ (c.retry = [] → ∃ t, exec (.commandConfirm m) s = .next t ∧ McOnly s t m ∧ mcOf t m = c)
    ∧ (mcState c = 1 ∨ mcState c = 3 → ∃ t, exec (.parityAlert m) s = .next t ∧ McOnly s t m ∧ mcOf t m = { c with err := satFld c.err 31 24 1 })
    ∧ (mcState c = 0 ∨ mcState c = 4 ∨ mcState c = 5 → ∃ t, exec (.parityAlert m) s = .next t ∧ t = s)
    ∧ (mcState c = 2 ∨ mcState c = 6 →
        (c.replay = 0 → ∃ t, exec (.parityAlert m) s = .next t ∧ McOnly s t m ∧
          mcOf t m = { c with err := satFld c.err 31 24 1, replay := c.retry.length }) ∧
        (c.replay ≠ 0 → c.fails < 2 → ∃ t, exec (.parityAlert m) s = .next t ∧ McOnly s t m ∧
          mcOf t m = { c with err := satFld c.err 31 24 1, replay := c.retry.length, fails := c.fails + 1 }) ∧
        (c.replay ≠ 0 → c.fails = 2 → ∃ t, exec (.parityAlert m) s = .next t ∧
          (let y := mcOf t m
           mcState y = 3 ∧ bitOf y.err 16 = true ∧ fld y.err 23 20 = min 15 (fld c.err 23 20 + 1) ∧
           fld y.err 31 24 = min 255 (fld c.err 31 24 + 1) ∧ y.fails = 0 ∧ y.replay = 0 ∧ y.retry = c.retry ∧ fld y.err 63 32 = fld c.err 63 32) ∧
          t.st.log.head? = some { us := s.now - s.st.began, cls := 7, unit := m, detail := 0 } ∧
          t = { s with mcs := t.mcs, st := t.st, svc := t.svc } ∧ ∀ k, k ≠ m.val → mcOf t k = mcOf s k))
    ∧ (∀ dur, mcState c = 3 → c.stopping = false → McIdle s m → ∃ t y, exec (.mcRecoveryDone m 0 true dur) s = .next t ∧
        McIssued { c with retry := [], stat := setFld (setFld c.stat 55 48 0) 47 32 (min 0xFFFF dur) } y [] ∧ BecomesReady s t m y)
    ∧ (∀ (f : BitVec 8) ok dur, mcState c = 3 → f ≠ 0 ∨ ok = false → ∃ t, exec (.mcRecoveryDone m f ok dur) s = .next t ∧
        BecomesFailed s t m { c with stat := setFld (setFld c.stat 55 48 f.toNat) 47 32 (min 0xFFFF dur) })
    ∧ (∃ t, exec (.mcErrClear m) s = .next t ∧ McOnly s t m ∧ (let y := mcOf t m
        y = { c with err := y.err } ∧ fld y.err 63 20 = 0 ∧ fld y.err 16 15 = fld c.err 16 15))

/-- R290, R291 and R310 to R335 for each request command. -/
def Obligations.GuardRequests : Prop :=
  ∀ (h : Hdr) (data : List PWord) (v : ReqEnv) (s : State),
    (∃ t, exec (.nocRd h v) s = .next t ∧ GuardAsked s { cmd := .rd, h := h, data := [], flips := v.flips, src := v.src } t)
    ∧ (∃ t, exec (.nocRde h v) s = .next t ∧ GuardAsked s { cmd := .rde, h := h, data := [], flips := v.flips, src := v.src } t)
    ∧ (∃ t, exec (.nocWr h data v) s = .next t ∧ GuardAsked s { cmd := .wr, h := h, data := data, flips := v.flips, src := v.src } t)
    ∧ (∃ t, exec (.nocWri1 h v) s = .next t ∧ GuardAsked s { cmd := .wri1, h := h, data := [], flips := v.flips, src := v.src } t)
    ∧ (∃ t, exec (.nocWri2 h v) s = .next t ∧ GuardAsked s { cmd := .wri2, h := h, data := [], flips := v.flips, src := v.src } t)
    ∧ (∃ t, exec (.nocWri4 h v) s = .next t ∧ GuardAsked s { cmd := .wri4, h := h, data := [], flips := v.flips, src := v.src } t)
    ∧ (∃ t, exec (.nocWri8 h v) s = .next t ∧ GuardAsked s { cmd := .wri8, h := h, data := [], flips := v.flips, src := v.src } t)
    ∧ (∃ t, exec (.nocFadd h v) s = .next t ∧ GuardAsked s { cmd := .fadd, h := h, data := [], flips := v.flips, src := v.src } t)
    ∧ (∃ t, exec (.nocSwap h v) s = .next t ∧ GuardAsked s { cmd := .swap, h := h, data := [], flips := v.flips, src := v.src } t)
    ∧ (∃ t, exec (.nocRsvrd h v) s = .next t ∧ GuardAsked s { cmd := .rsvrd, h := h, data := [], flips := v.flips, src := v.src } t)
    ∧ (∃ t, exec (.nocCwr h v) s = .next t ∧ GuardAsked s { cmd := .cwr, h := h, data := [], flips := v.flips, src := v.src } t)

/-- R273, R310 to R313 and R317 for one waiting request. -/
def Obligations.GuardLines : Prop :=
  ∀ (m : McId) (o : LineErrs) (pd : GPend) (la : Nat) (s : State),
    let g := grdOf s m
    let n := numAt s m la
    let h := guardHit s m n o
    let r := lineSeen s m n o
    let ws := plainWords r.plain
    let maj := majorOf g (pageAt s m la)
    let calm := (g.ueTimes.filter (fun u => decide (s.now < u + 1000000))).length < max 1 (fld g.ctl 47 40)
    let quiet := fun (t : State) =>
      t = { s with noc := { s.noc with responses := t.noc.responses }, mcs := t.mcs, guards := t.guards, fresh := t.fresh } ∧ ∀ k, k ≠ m.val → mcOf t k = mcOf s k ∧ grdOf t k = grdOf s k
    let logged := fun (t : State) => t.st.log.head? = some { us := s.now - s.st.began, cls := 6, unit := m, detail := lineAddr s m n }
    let part := lineTouched pd.req la = true ∧ lineFull pd.req la = false
    let merged := fun (base : List Word) => (List.range 8).map (fun i =>
      (base.getD i 0 &&& ~~~ (beMask (lineBe pd.req la i))) ||| ((lineWord pd.req la i).val &&& beMask (lineBe pd.req la i)))
    let inPois := (List.range 8).any (fun i => lineBe pd.req la i != 0 && (lineWord pd.req la i).pois)
    (OneLine s m pd la → pd.req.isRead = true → minorOf g n ≠ 127 → r.ue = false → r.tagOk = true →
      ∃ t ans, exec (.dataLineArrive m n o) s = .next t ∧ quiet t ∧ t.noc.responses = s.noc.responses ++ [ans] ∧
        LineData pd la ans ws r.pois ∧ ans.code = (if pd.early then 1 else 0) ∧ grdOf t m = { h with pend := [] } ∧
        (r.ce = false → mcOf t m = mcServed (mcOf s m) true) ∧
        (r.ce = true → CeSeen (mcOf s m) (mcOf t m) (lineAddr s m n) ∧ (mcOf t m).wbs = (mcOf s m).wbs ++ [(n, r.line)]))
    ∧ (OneLine s m pd la → pd.req.isRead = true → minorOf g n = 127 →
        ∃ t ans, exec (.dataLineArrive m n o) s = .next t ∧ quiet t ∧ t.noc.responses = s.noc.responses ++ [ans] ∧
          LineData pd la ans [] (bitOf maj 63) ∧ ans.code = (if pd.early then 1 else 0) ∧ grdOf t m = { h with pend := [] } ∧
          mcOf t m = mcServed (mcOf s m) true)
    ∧ (OneLine s m pd la → pd.req.isRead = true → minorOf g n ≠ 127 → r.ue = true → calm →
        ∃ t ans, exec (.dataLineArrive m n o) s = .next t ∧ t.noc.responses = s.noc.responses ++ [ans] ∧
          LineData pd la ans ws true ∧ ans.code = (if pd.early then 1 else 0) ∧
          UeSeen (mcOf s m) (mcOf t m) (lineAddr s m n) ∧ (grdOf t m).lines = h.lines ∧ logged t ∧
          t = { s with noc := { s.noc with responses := t.noc.responses }, mcs := t.mcs, guards := t.guards, fresh := t.fresh,
                       st := t.st, svc := t.svc })
    ∧ (OneLine s m pd la → pd.req.isRead = true → minorOf g n ≠ 127 → r.ue = false → r.tagOk = false →
        ∃ t u, exec (.dataLineArrive m n o) s = .next t ∧ t = alarms u [1] ∧ (let y := grdOf u m
          y = { h with pend := [], err := y.err, erraddr := y.erraddr } ∧ bitOf y.err 0 = true ∧
          fld y.err 63 48 = min 65535 (fld g.err 63 48 + 1) ∧ y.erraddr = mkWord [(30, 0, lineAddr s m n)]) ∧
          (mcOf u m).wbs = (mcOf s m).wbs ∧
          (pd.early = false → u.noc.responses = s.noc.responses ++ [pd.req.err 0x509]) ∧
          (pd.early = true → ∃ ans, u.noc.responses = s.noc.responses ++ [ans] ∧ LineData pd la ans ws false ∧ ans.code = 2) ∧ logged u)
    ∧ (OneLine s m pd la → pd.req.isWrite = true → part → minorOf g n < 126 → r.ue = false → r.tagOk = true →
        ∃ t, exec (.dataLineArrive m n o) s = .next t ∧ quiet t ∧ t.noc.responses = s.noc.responses ++ [pd.req.ack] ∧
          LineHolds (grdOf t m) m n maj (minorOf g n + 1) (merged ws) (inPois || r.pois) ∧
          minorOf (grdOf t m) n = minorOf g n + 1 ∧ GuardOthers g (grdOf t m) n ∧ (grdOf t m).pend = [])
    ∧ (OneLine s m pd la → pd.req.isWrite = true → part → minorOf g n < 126 → r.ue = true → calm →
        ∃ t, exec (.dataLineArrive m n o) s = .next t ∧ t.noc.responses = s.noc.responses ++ [pd.req.ack] ∧ logged t ∧
          LineHolds (grdOf t m) m n maj (minorOf g n + 1) (merged ws) true ∧
          minorOf (grdOf t m) n = minorOf g n + 1 ∧ GuardOthers g (grdOf t m) n ∧ (grdOf t m).pend = [])
    ∧ (OneLine s m pd la → pd.req.isWrite = true → part → minorOf g n = 127 →
        ∃ t, exec (.dataLineArrive m n o) s = .next t ∧ quiet t ∧ t.noc.responses = s.noc.responses ++ [pd.req.ack] ∧
          LineHolds (grdOf t m) m n maj 0 (merged []) (inPois || bitOf maj 63) ∧ minorOf (grdOf t m) n = 0 ∧
          GuardOthers g (grdOf t m) n)
    ∧ (OneLine s m pd la → pd.req.isWrite = true → part → minorOf g n < 126 → r.ue = false → r.tagOk = false →
        ∃ t u, exec (.dataLineArrive m n o) s = .next t ∧ t = alarms u [1] ∧ logged u ∧
          u.noc.responses = s.noc.responses ++ [pd.req.err 0x709] ∧ (let y := grdOf u m
          y = { h with pend := [], err := y.err, erraddr := y.erraddr } ∧ bitOf y.err 2 = true ∧
          fld y.err 39 32 = min 255 (fld g.err 39 32 + 1) ∧ y.erraddr = mkWord [(30, 0, lineAddr s m n)]))
    ∧ (∀ page rest, mcServing s m = true → g.reenc = page :: rest → g.pend = [] → g.finds = [] →
        ¬ (bitOf (majorOf g page) 63 = true ∧ fld (majorOf g page) 38 0 = 2 ^ 39 - 1) →
        ¬ (bitOf (majorOf g page) 63 = false ∧ fld (majorOf g page) 62 0 = 2 ^ 63 - 1) →
        (∀ k, k / 64 = page → minorOf g k ≠ 127 → ((gsOf s m).dataRead k).ue = false ∧ ((gsOf s m).dataRead k).tagOk = true) →
        ∃ t, exec (.reencryptDone m []) s = .next t ∧ quiet t ∧ (let y := grdOf t m
          majorOf y page = majorOf g page + 1 ∧ y.reenc = rest ∧
          (∀ k, minorOf y k = if k / 64 = page ∧ minorOf g k ≠ 127 then 0 else minorOf g k) ∧
          (∀ k, k / 64 = page → minorOf g k ≠ 127 → LineHolds y m k (majorOf g page + 1) 0 (plainWords ((gsOf s m).dataRead k).plain) ((gsOf s m).dataRead k).pois) ∧
          (∀ k, k / 64 ≠ page ∨ minorOf g k = 127 → tget [] y.lines k = tget [] g.lines k) ∧
          ∀ p, p ≠ page → majorOf y p = majorOf g p))

/-- R303, R304 and R314 to R335. -/
def Obligations.GuardMetadata : Prop :=
  ∀ (m : McId) (s : State),
    let g := grdOf s m
    let gb := (memMap s).gb
    let onlyG := fun (t : State) => GrdOnly s t m
    let here := fun (t : State) => t = { s with mcs := t.mcs, guards := t.guards } ∧ ∀ k, k ≠ m.val → mcOf t k = mcOf s k ∧ grdOf t k = grdOf s k
    let moved := fun (t : State) => ∃ cs, McIssued { mcOf s m with wbs := (mcOf t m).wbs } (mcOf t m) cs
    let holds := fun (y : Guard) (j : Nat) (ctr : Word) => tget [] y.metas j =
      lineStored (g.key.getD 0) { ctr := ctr, min := 0, tree := true, m := m, line := j } (leBytes 64 (metaNow g gb j)) false
    let quiet := fun (t : State) =>
      t = { s with noc := { s.noc with responses := t.noc.responses }, mcs := t.mcs, guards := t.guards, fresh := t.fresh } ∧ ∀ k, mcOf t k = mcOf s k ∧ (k ≠ m.val → grdOf t k = grdOf s k)
    (∀ k, gState g = 0 → mcState (mcOf s m) = 2 → s.sec.memKey = some k → ∃ t, exec (.guardInit m) s = .next t ∧ onlyG t ∧
      grdOf t m = { g with key := some k, stat := setFld g.stat 63 60 1 })
    ∧ (gState g = 1 → s.noc.accepted.filter (fun r => r.unit == 5000 + m.val) = [] → g.pend = [] → ∃ t, exec (.guardInitDone m) s = .next t ∧
        t = { s with guards := t.guards, mcs := t.mcs } ∧
        (∀ k, mcOf t k = mcOf s k ∧ (k ≠ m.val → grdOf t k = grdOf s k)) ∧ (let y := grdOf t m
          gState y = 2 ∧ fld y.stat 59 0 = fld g.stat 59 0 ∧ (∀ p, majorOf y p = 0) ∧ (∀ k, minorOf y k = 127) ∧ y.root = [] ∧
          (∀ j sl, nodeOf y gb j sl = 0) ∧ y.cache = [] ∧ y.lines = [] ∧ (∀ p, pageDead y p = false) ∧
          y = { g with stat := y.stat, root := [], nodes := [], majors := [], minors := [], rebuilt := [], rebuilding := [],
                       dead := [], exhausted := [], reenc := [], cache := [], lines := [], metas := [], finds := [], loose := [] }))
    ∧ (∀ j rest pd, mcServing s m = true → g.pend = [pd] → g.finds = [] → pd.req.isRead = true → pd.req.nWords ≠ 0 → pd.failed = 0 → pd.seen = [] →
        missing (gsOf s m) (pageAt s m ((reqLines pd.req).headD 0)) = j :: rest → (gsOf s m).asked (metaHome gb j) = true →
        (let r := (gsOf s m).metaRead j
         r.ue = false → r.ce = false → r.tagOk = true → (g.cache.filter (fun e => e.1 % 1024 == j % 1024)).length < 16 →
        ∃ t, exec (.metadataArrive m j []) s = .next t ∧ quiet t ∧ t.noc.responses = s.noc.responses ∧ (let y := grdOf t m
          y.cache = (j, false) :: g.cache ∧ y.pend = [pd] ∧ y.err = g.err ∧ y.lines = g.lines ∧
          if (metaPlace gb j).1 = 0 then (leNat r.plain % 2 ^ 64 ≠ 0 ∨ g.rebuilt = [] → majorOf y j = BitVec.ofNat 64 (leNat r.plain)) ∧
            (∀ i, i < 64 → minorOf y (64 * j + i) = leNat r.plain / 2 ^ (64 + 7 * i) % 128) ∧
            (∀ p, p ≠ j → majorOf y p = majorOf g p) ∧ ∀ k, k / 64 ≠ j → minorOf y k = minorOf g k
          else (∀ sl, sl < 8 → nodeOf y gb j sl = BitVec.ofNat 64 (leNat r.plain / 2 ^ (64 * sl))) ∧ y.minors = g.minors ∧ y.majors = g.majors)))
    ∧ (∀ j o pd page, mcServing s m = true → g.pend = [pd] → g.finds = [] → pd.req.isRead = true → pd.req.nWords ≠ 0 → pd.early = false → pd.seen = [] → pd.failed = 0 →
        page = pageAt s m ((reqLines pd.req).headD 0) → missing (gsOf s m) page = [j] → pageDead g page = false → (gsOf s m).asked (metaHome gb j) = true →
        (((gsOf s m).metaHit j o).metaRead j).ue = true → page < 16 * dataGroups gb →
        fld g.stat 55 32 < 0xFFFFFF → (g.ueTimes.filter (fun u => decide (s.now < u + 1000000))).length < max 1 (fld g.ctl 47 40) →
        ∃ t u, exec (.metadataArrive m j o) s = .next t ∧ t = alarms u [4] ∧
          (let y := grdOf u m
           gState y = 3 ∧ fld y.stat 55 32 = fld g.stat 55 32 + 1 ∧ bitOf y.err 1 = true ∧ bitOf y.err 3 = true ∧
           fld y.err 47 40 = min 255 (fld g.err 47 40 + 1) ∧ y.erraddr = mkWord [(63, 63, 1), (30, 0, j)] ∧
           (∀ i, i < 64 → minorOf y (64 * page + i) = 127) ∧ bitOf (majorOf y page) 63 = true ∧
           fld (majorOf y page) 62 39 = fld g.stat 55 32 + 1 ∧ (∀ p, p ≠ page → majorOf y p = majorOf g p)))
    ∧ (∀ j sl, oldestDirty g = some j → min 0x80 (fld g.ctl 39 32) * 64 < dirtyCount g → metaParent gb j = (none, sl) →
        ∃ t, exec (.cacheWriteBack m) s = .next t ∧ here t ∧ moved t ∧ (let y := grdOf t m
          tget 0 y.root sl = tget 0 g.root sl + 1 ∧ holds y j (tget 0 g.root sl + 1) ∧ (j, true) ∉ y.cache ∧ y.nodes = g.nodes ∧ fld y.stat 14 0 = dirtyCount y % 2 ^ 15))
    ∧ (∀ j p sl, oldestDirty g = some j → min 0x80 (fld g.ctl 39 32) * 64 < dirtyCount g → metaParent gb j = (some p, sl) →
        cached g p = true → p ≠ j → ((g.cache.filter (fun e => e.1 != p)).filter (fun e => e.1 % 1024 == p % 1024)).length < 16 →
        ∃ t, exec (.cacheWriteBack m) s = .next t ∧ here t ∧ moved t ∧ (let y := grdOf t m
          nodeOf y gb p sl = nodeOf g gb p sl + 1 ∧ holds y j (nodeOf g gb p sl + 1) ∧ (j, true) ∉ y.cache ∧ (p, true) ∈ y.cache ∧ y.root = g.root))
    ∧ (∀ j n rest, mcServing s m = true → g.rebuilding = (j, n + 1) :: rest → ∃ t, exec (.rebuildWrite m) s = .next t ∧ here t ∧ moved t ∧
        grdOf t m = { g with rebuilding := (j, n) :: rest })
    ∧ (∀ j sl, mcServing s m = true → g.rebuilding = [(j, 0)] → metaParent gb j = (none, sl) → ∃ t, exec (.rebuildDone m) s = .next t ∧
        here t ∧ moved t ∧ (let y := grdOf t m
          gState y = 2 ∧ y.rebuilding = [] ∧ tget 0 y.root sl = tget 0 g.root sl + 1 ∧ y.minors = g.minors ∧ y.lines = g.lines))
    ∧ (let c := mcOf s m
       let group := c.patrol % gb
       let bank := c.patrol / gb
       let seen := fun (i : Nat) => if dataGroups gb ≤ group then (gsOf s m).metaRead ((group - dataGroups gb) * 1024 + bank * 8 + i)
         else (gsOf s m).dataRead ((128 * group + bank) * 8 + i)
       let clean := fun (i : Nat) => (seen i).ue = false ∧ (seen i).ce = false
       mcServing s m = true → fld c.ctl 39 24 ≠ 0 → (∀ i, i < 8 → clean i) → ∃ t cs, exec (.patrolScrub m []) s = .next t ∧ here t ∧
        grdOf t m = g ∧ moves cs = (groupBlocks group (List.range 8)).map (.read bank) ∧
        McIssued (if c.patrol + 1 = 128 * gb then { c with patrol := 0, stat := setFld c.stat 23 16 (fld c.stat 23 16 + 1) }
          else { c with patrol := c.patrol + 1 }) (mcOf t m) cs)
    ∧ (let ts := g.ueTimes.filter (fun u => decide (s.now < u + 1000000))
       ts.length ≤ max 1 (fld g.ctl 47 40) → ∃ t, exec (.uerateRearm m) s = .next t ∧ onlyG t ∧
        grdOf t m = { g with ueTimes := ts, ueArmed := true })
    ∧ (∀ (n : Fin 16) (v : Word), (∃ t, exec (.windowWrite m n false v) s = .next t ∧ onlyG t ∧ (winGet (grdOf t m) n).range = v ∧
          (winGet (grdOf t m) n).rights = (winGet g n).rights ∧ (∀ k, k ≠ n.val → winGet (grdOf t m) k = winGet g k)) ∧
        ∃ t, exec (.windowWrite m n true v) s = .next t ∧ onlyG t ∧ (winGet (grdOf t m) n).range = (winGet g n).range ∧
          fld (winGet (grdOf t m) n).rights 63 32 = fld v 63 32 ∧ (∀ k, k ≠ n.val → winGet (grdOf t m) k = winGet g k) ∧
          ∀ c, c < 8 → ∀ b, b < 4 → bitOf (winGet (grdOf t m) n).rights (4 * c + b) =
            (decide (c < 7) && (b != 2 || c == 4 || c == 5) && bitOf v (4 * c + b)))
    ∧ (∃ t, exec (.guardErrClear m) s = .next t ∧ onlyG t ∧ (let y := grdOf t m
        y = { g with err := y.err } ∧ fld y.err 63 32 = 0 ∧ fld y.err 4 0 = fld g.err 4 0))

/-- R327, R328, R347 to R351. -/
def Obligations.LinkFrames : Prop :=
  ∀ (l : LaneId) (s : State),
    let x := lkOf s l
    let known := fun (ty : Nat) => ty = 0x01 ∨ ty = 0x02 ∨ ty = 0x10 ∨ ty = 0x11
    let fits := fun (p : List Byte) => 32 ≤ p.length ∧ p.length ≤ 512 ∧ p.length % 32 = 0
    let recent := x.discards.filter (fun u => decide (s.now < u + 1000))
    (∀ (ty : Byte) p, lkUp s l = true → known ty.toNat → fits p → p.length ≤ 32 * lkUnits s l → x.waiting = [] → x.txSleep = false → x.replay.length < 512 →
      x.txSeq + 1 ≠ 2 ^ 48 → ∃ t, exec (.nativeFrameSend l ty p) s = .next t ∧ LinkIs s t l { x with
        txSeq := x.txSeq + 1, replay := x.replay ++ [{ seq := x.txSeq, ftype := ty.toNat, payload := p }],
        out := x.out ++ [frameBlock x { seq := x.txSeq, ftype := ty.toNat, payload := p }] })
    ∧ (∀ (ty : Byte) p, lnIsLead s l = true → lnNative s l = true → known ty.toNat → fits p → p.length ≤ 32 * lkUnits s l →
        (lnState s l ≠ 5 ∨ x.txSleep = true ∨ 512 ≤ x.replay.length ∨ x.waiting ≠ []) →
        ∃ t, exec (.nativeFrameSend l ty p) s = .next t ∧
          LinkIs s t l { x with waiting := x.waiting ++ [{ seq := 0, ftype := ty.toNat, payload := p }] })
    ∧ (∀ (f : NFrame) p, Opened s l → (x.skip = none ∨ x.skip = some x.rxSeq) → frameOpen x x.rxSeq f = some p → f.seq.toNat = x.rxSeq % 65536 →
        fits f.payload → known f.ftype.toNat → (lnMode s l = 2 ∨ 0x10 ≤ f.ftype.toNat) → x.rxSeq + 1 ≠ 2 ^ 48 →
        ∃ t, exec (.nativeFrameReceive l f) s = .next t ∧ LinkIs s t l { x with
          rxSeq := x.rxSeq + 1, skip := none, opened := false,
          got := x.got ++ [{ seq := x.rxSeq, ftype := f.ftype.toNat, payload := p }],
          sinceAck := (if 31 ≤ x.sinceAck then 0 else x.sinceAck + 1),
          out := (if 31 ≤ x.sinceAck then x.out ++ [{ kind := ctlACK, val := x.rxSeq + 1 }] else x.out) })
    ∧ (∀ f : NFrame, Opened s l → (x.skip = none ∨ x.skip = some x.rxSeq) → f.seq.toNat = x.rxSeq % 65536 → frameOpen x x.rxSeq f = none →
        recent.length < 3 → ∃ t, exec (.nativeFrameReceive l f) s = .next t ∧ LinkOnly s t l ∧
          lkOf t l = { x with discards := recent ++ [s.now], opened := false, skip := some x.rxSeq,
                              out := x.out ++ [{ kind := ctlNAK, val := x.rxSeq }] } ∧
          laneOf t l = { laneOf s l with err := (laneOf t l).err } ∧ (∀ k, k ≠ l.val → laneOf t k = laneOf s k) ∧
          fld (laneOf t l).err 23 16 = min 255 (fld (laneOf s l).err 23 16 + 1))
    ∧ (∀ f : NFrame, Opened s l → (x.skip = none ∨ x.skip = some x.rxSeq) → f.seq.toNat = x.rxSeq % 65536 → frameOpen x x.rxSeq f = none →
        3 ≤ recent.length → ∃ t u v, exec (.nativeFrameReceive l f) s = .next t ∧ t = alarms u [5] ∧ LinkLeft v u l 2 ∧
          v = { s with lanes := v.lanes, lks := v.lks } ∧ (lkOf v l).replay = x.replay ∧ (lkOf v l).got = x.got ∧
          (lkOf v l).rxSeq = x.rxSeq ∧ fld (laneOf v l).err 23 16 = min 255 (fld (laneOf s l).err 23 16 + 1))
    ∧ (∀ (f : NFrame) k, Opened s l → x.skip = some k → f.seq.toNat ≠ k % 65536 →
        ∃ t, exec (.nativeFrameReceive l f) s = .next t ∧ LinkIs s t l { x with opened := false })
    ∧ (∀ f : NFrame, Opened s l → x.skip = none → (frameOpen x x.rxSeq f).isSome = true → f.seq.toNat = x.rxSeq % 65536 → fits f.payload →
        ¬ known f.ftype.toNat → recent.length < 3 → ∃ t, exec (.nativeFrameReceive l f) s = .next t ∧ LinkOnly s t l ∧
          (lkOf t l).rxSeq = x.rxSeq + 1 ∧ (lkOf t l).got = x.got ∧ (lkOf t l).out = x.out ∧
          fld (laneOf t l).err 23 16 = min 255 (fld (laneOf s l).err 23 16 + 1))
    ∧ (∃ t, exec (.ctlIdle l) s = .next t ∧ t = s)
    ∧ (lkUp s l = true → (∃ t, exec (.ctlSof l) s = .next t ∧ LinkIs s t l { x with opened := true }) ∧
        ∃ t, exec (.ctlAbort l) s = .next t ∧ LinkIs s t l { x with opened := false })
    ∧ (∀ seq, lkUp s l = true → x.waiting = [] → ∃ t, exec (.ctlAck l seq) s = .next t ∧
        LinkIs s t l { x with replay := x.replay.filter (fun f => decide (seq ≤ f.seq)) })
    ∧ (∀ seq f, lkUp s l = true → x.waiting = [f] → x.txSleep = false → (x.replay.filter (fun c => decide (seq ≤ c.seq))).length < 512 →
        x.txSeq + 1 ≠ 2 ^ 48 → ∃ t, exec (.ctlAck l seq) s = .next t ∧ LinkIs s t l { x with
          waiting := [], txSeq := x.txSeq + 1,
          replay := x.replay.filter (fun c => decide (seq ≤ c.seq)) ++ [{ seq := x.txSeq, ftype := f.ftype, payload := f.payload }],
          out := x.out ++ [frameBlock x { seq := x.txSeq, ftype := f.ftype, payload := f.payload }] })
    ∧ (∀ seq, lkUp s l = true → ∃ t, exec (.ctlNak l seq) s = .next t ∧ LinkIs s t l { x with
        out := x.out ++ (x.replay.filter (fun f => decide (seq ≤ f.seq))).map (frameBlock x) })
    ∧ (lkUp s l = true → ∃ t, exec (.replayTimeout l) s = .next t ∧ LinkIs s t l { x with
        out := x.out ++ x.replay.map (frameBlock x) })
    ∧ (∀ k, lkUp s l = true → x.skip = some k → ∃ t, exec (.nakTimeout l) s = .next t ∧
        LinkIs s t l { x with out := x.out ++ [{ kind := ctlNAK, val := k }] })
    ∧ (lkUp s l = true → 0 < x.sinceAck → ∃ t, exec (.ackTimer l) s = .next t ∧
        LinkIs s t l { x with sinceAck := 0, out := x.out ++ [{ kind := ctlACK, val := x.rxSeq }] })
    ∧ (∀ cw : CwSeen, bitOf (laneOf s (l + cw.lane)).cfg 59 = true → cw.head = true → ∀ b : CwSeen → Instr, Block l b →
        let k := l + cw.lane
        let y := laneOf s k
        (cwSyms cw = 0 → exec (b cw) s = exec (b {}) (lanePut s k { y with cwBad := 0 }))
        ∧ (0 < cwSyms cw → cwSyms cw ≤ 15 → exec (b cw) s = exec (b {}) (lanePut s k { y with cwBad := 0, err := satFld y.err 63 48 1 }))
        ∧ (15 < cwSyms cw → ∃ u, exec (b cw) s = .next (if y.cwBad < 7 then u else laneLost u l cw.lane) ∧
            u = { s with lanes := u.lanes, quads := u.quads } ∧ (∀ j, j ≠ k → laneOf u j = laneOf s j) ∧ (laneOf u k).cwBad = y.cwBad + 1 ∧
            lnF u k 54 54 = 0 ∧ fld (laneOf u k).err 47 32 = min 65535 (fld y.err 47 32 + 1)))

/-- R346 and R352 to R359. -/
def Obligations.LinkBringUp : Prop :=
  ∀ (l : LaneId) (s : State),
    let x := lkOf s l
    let need := max 1 (lnWidth s l - 1)
    let st := lnState s l
    let moves := fun (t : State) (n : Nat) => LinkOnly s t l ∧ LanesKeep s t ∧ lnState t l = n
    let full := lnF s l 47 32
    (∀ found on, lnIsLead s l = true → st = 1 → bscan s = false → Probed s l found on →
      (need ≤ popc (on &&& x.probed) → ∃ t, exec (.detectProbe l found) s = .next t ∧
        moves t (if lnNative s l || bitOf (laneOf s l).cfg 59 then 2 else 3) ∧ lkOf t l = { x with probed := 0, txMask := on &&& x.probed }) ∧
      (popc (on &&& x.probed) < need → ∃ t, exec (.detectProbe l found) s = .next t ∧ LinkIs s t l { x with probed := on }))
    ∧ (∀ (mask : BitVec 16) pre, lnIsLead s l = true → st = 2 → need ≤ popc (mask.toNat &&& x.txMask) →
        ∃ t, exec (.trainDone l mask pre) s = .next t ∧ moves t 3 ∧
          lkOf t l = { x with txMask := mask.toNat &&& x.txMask, txPre := bitOf (laneOf s l).cfg 59 && pre } ∧
          ∀ k ∈ lnLanes s l, lnF t k 53 53 = (bitOf (laneOf s l).cfg 59 && bitOf (laneOf s l).cfg 21).toNat)
    ∧ (lnIsLead s l = true → st = 2 → ∃ t, exec (.trainTimeout l) s = .next t ∧ LinkLeft s t l 1)
    ∧ (lnIsLead s l = true → st = 3 → ∃ t, exec (.lockTimeout l) s = .next t ∧
        moves t (if lnNative s l || bitOf (laneOf s l).cfg 59 then 2 else 1) ∧ lkOf t l = x)
    ∧ (lnIsLead s l = true → st = 3 → lnNative s l = true → bitOf s.sec.state 51 = true →
        ∃ t, exec (.lockDone l) s = .next t ∧ lnState t l = 4 ∧ CapBegins x (lkOf t l) ∧ (lkOf t l).tries = 1 ∧
          (lkOf t l).txMask = x.txMask ∧ (lkOf t l).resume = x.resume ∧
          (∀ i, i < 16 → nbit x.txMask i = true → lnF t (l + i) 54 54 = 1) ∧ t = { s with lanes := t.lanes, lks := t.lks, fresh := t.fresh })
    ∧ (lnIsLead s l = true → st = 3 → lnNative s l = false → ∃ t u, exec (.lockDone l) s = .next t ∧ t = fullCheck u ∧
        lnState u l = 5 ∧ lnF u l 47 32 = x.txMask % 65536 ∧ lnF u l 31 16 = (lnF s l 31 16 + 1) % 65536 ∧ u = { s with lanes := u.lanes })
    ∧ (lnIsLead s l = true → st = 4 → x.tries < 3 → bitOf s.sec.state 51 = true → ∃ t, exec (.capTimeout l) s = .next t ∧
        CapBegins x (lkOf t l) ∧ (lkOf t l).tries = x.tries + 1 ∧ (lkOf t l).txMask = x.txMask ∧ (lkOf t l).resume = x.resume ∧
        t = { s with lks := t.lks, fresh := t.fresh })
    ∧ (lnIsLead s l = true → st = 4 → 3 ≤ x.tries → ∃ t, exec (.capTimeout l) s = .next t ∧ LinkLeft s t l 2)
    ∧ (∀ (p : Fin 16) b, lnIsLead s l = true → lnNative s l = true → st = 4 → x.round = 1 → CapLacks x 1 p → b ≠ [] → x.parts.all (fun e => e.1 < 32) → x.mine.length = 38 →
        capNonce (capHears x 1 p b) ≠ capNonce x.mine → ∃ t u, exec (.ctlCap l 1 p b) s = .next t ∧ t = fullCheck u ∧
          u = { s with lks := u.lks } ∧ (let y := lkOf u l
            y.round = 2 ∧ y.theirs = capHears x 1 p b ∧ y.mine.take 30 = x.mine.take 30 ∧
            y.mine.drop 30 = kcvOf s l (capNonce x.mine) (capNonce (capHears x 1 p b)) ∧ y.out.length = x.out.length + 3 ∧
            y.replay = x.replay ∧ y.txMask = x.txMask))
    ∧ (∀ (p : Fin 16) b, lnIsLead s l = true → lnNative s l = true → st = 4 → x.round = 2 → CapLacks x 2 p → b ≠ [] →
        capKcv (capHears x 2 p b) = capKcv x.mine → ∃ t u, exec (.ctlCap l 2 p b) s = .next t ∧ t = fullCheck u ∧
          u = { s with lks := u.lks, lanes := u.lanes } ∧ lnState u l = 5 ∧ lnF u l 31 16 = (lnF s l 31 16 + 1) % 65536 ∧
          (let y := lkOf u l
           let m := x.txMask &&& capMask (capHears x 2 p b)
           let kept := x.replay.filter (fun f => decide (capResume (capHears x 2 p b) ≤ f.seq))
           y.txMask = m ∧ lnF u l 47 32 = m % 65536 ∧ y.rxSeq = 0 ∧ y.txSeq = kept.length ∧ y.out = x.out ++ y.replay.map (frameBlock y) ∧
           y.keys = (if lnMode s l = 2 then some (linkKeys s l (capNonce x.mine) (capNonce (capHears x 2 p b))) else none) ∧
           y.rxLost = decide (popc m < lnWidth s l) ∧ y.txLost = decide (popc m < lnWidth s l) ∧
           y.replay.map (fun f => (f.ftype, f.payload)) = kept.map (fun f => (f.ftype, f.payload)) ∧
           y.replay.map (fun f => f.seq) = List.range kept.length ∧ y.got = x.got))
    ∧ (∀ (p : Fin 16) b, lnIsLead s l = true → lnNative s l = true → st = 4 → x.round = 2 → CapLacks x 2 p → b ≠ [] →
        capKcv (capHears x 2 p b) ≠ capKcv x.mine → ∃ t u, exec (.ctlCap l 2 p b) s = .next t ∧ t = fullCheck u ∧
          lnState u l = 6 ∧ lnF u l 51 51 = 1 ∧ (lkOf u l).replay = x.replay ∧ u = { s with lks := u.lks, lanes := u.lanes })
    ∧ (∀ i : Fin 16, lkUp s l = true → nbit full i = true → x.rxLost = false → nclr full i ≠ 0 →
        ∃ t, exec (.laneLoss l i) s = .next t ∧ t.st.log.head? = some { us := s.now - s.st.began, cls := 9, unit := l, detail := nclr full i } ∧
          t = { s with lanes := t.lanes, lks := t.lks, st := t.st, svc := t.svc } ∧
          lkOf t l = { x with rxLost := true, rxNew := some (nclr full i), rxConf := false, ams := 0,
                              out := x.out ++ [{ kind := ctlRESTRIPE, val := nclr full i }] } ∧
          lnF t (l + i) 52 52 = 1 ∧ (∀ k, k ≠ l + i.val → laneOf t k = laneOf s k))
    ∧ (∀ i : Fin 16, lkUp s l = true → nbit full i = true → (x.rxLost = true ∨ nclr full i = 0) →
        ∃ t, exec (.laneLoss l i) s = .next t ∧ LinkLeft (faultLog s 9 l (nclr full i)) t l 1)
    ∧ (∀ mask : BitVec 16, lkUp s l = true → x.txLost = false → mask ≠ 0 → ∃ t, exec (.ctlRestripe l mask false) s = .next t ∧
        LinkIs s t l { x with txMask := mask.toNat, txLost := true,
                              out := x.out ++ [{ kind := ctlRESTRIPE, val := mask.toNat, bytes := [1] }, { kind := ctlAM, val := mask.toNat }] })
    ∧ (∀ mask : BitVec 16, lkUp s l = true → x.txLost = true → ∃ t, exec (.ctlRestripe l mask false) s = .next t ∧ LinkLeft s t l 1)
    ∧ (∀ mask : BitVec 16, lkUp s l = true → x.rxNew = some mask.toNat → ∃ t, exec (.ctlRestripe l mask true) s = .next t ∧
        LinkIs s t l { x with rxConf := true, ams := 0 })
    ∧ (∀ (i : Fin 16) (mask : BitVec 16), lnIsLead s l = true → lnNative s l = true → x.rxNew = some mask.toNat →
        ∃ t, exec (.ctlAm l i mask) s = .next t ∧ LinkIs s t l { x with ams := nset x.ams i })
    ∧ (∀ m, lkUp s l = true → x.rxNew = some m → x.rxConf = true → x.ams &&& m = m → ∃ t, exec (.restripeAligned l) s = .next t ∧
        LinkOnly s t l ∧ lkOf t l = { x with rxNew := none, rxConf := false, opened := false } ∧ lnF t l 47 32 = m % 65536 ∧ lnState t l = 5)
    ∧ (lkUp s l = true → ∃ t, exec (.ctlSleep l) s = .next t ∧ LinkOnly s t l ∧ LanesKeep s t ∧
        (∀ k ∈ lnLanes s l, lnF t k 57 56 = if rxReq s k = 1 then 1 else lnF s k 57 56) ∧
        ((lkOf t l).rxSleep = true ↔ x.rxSleep = true ∨ ∃ k ∈ lnLanes s l, rxReq s k = 1))
    ∧ (lkUp s l = true → (∀ k ∈ lnLanes s l, txReq s k = 1) → x.replay = [] → x.txSleep = false →
        ∃ t, exec (.sleepEntry l) s = .next t ∧ LinkOnly s t l ∧ LanesKeep s t ∧ (∀ k ∈ lnLanes s l, lnF t k 59 58 = 1) ∧
          lkOf t l = { x with txSleep := true, out := x.out ++ [{ kind := ctlSLEEP }] })
    ∧ (lkUp s l = true → x.rxSleep = true → ∃ t, exec (.rxSignalReturn l) s = .next t ∧ LinkOnly s t l ∧ LanesKeep s t ∧
        lkOf t l = { x with rxSleep := false } ∧ (∀ k ∈ lnLanes s l, lnF s k 57 56 = 1 → lnF t k 57 56 = 2 ∧ lnF t k 55 55 = 1))
    ∧ (lnIsLead s l = true → lnMode s l = 1 → 2 ≤ st → st ≤ 5 → ∃ t, exec (.ethLinkFail l) s = .next t ∧ LinkLeft s t l 1)
    ∧ (bitOf (laneOf s l).stat 54 = true → ∃ t, exec (.lockLost l) s = .next t ∧ t = { s with lanes := t.lanes, quads := t.quads } ∧
        lnF t l 54 54 = 0 ∧ fld (laneOf t l).err 31 24 = min 255 (fld (laneOf s l).err 31 24 + 1) ∧
        (∀ k, k ≠ l.val → laneOf t k = laneOf s k))
    ∧ (∃ t, exec (.laneErrClear l) s = .next t ∧ t = { s with lanes := t.lanes } ∧ laneOf t l = { laneOf s l with err := 0 } ∧
        (∀ k, k ≠ l.val → laneOf t k = laneOf s k))

/-- R342, R343, R355, R358, R362, R363, R370 and R375. -/
def Obligations.LinkPaths : Prop :=
  ∀ (q : QuadId) (st : Fin 4) (l : LaneId) (s : State),
    let x := laneOf s l
    let y := lkOf s l
    let i := fld x.dqCtl 54 36
    let j := fld x.dqCtl 34 16
    (∀ lead, (∀ k, k < 4 → lnLead s (4 * q + k) = 4 * q.val) → lead = 4 * q.val → lnIsLead s lead = true → lnWidth s lead = 4 → lnState s lead = 0 →
      (quadOf s q).ctl = 0 → (domOf s (0x400 + q)).cur < 2 → (domOf s (0x420 + q)).cur < 2 → (domOf s (0x480 + q / 8)).cur < 2 → (panelOf s q).iso = 0 →
      ∃ t, exec (.lanePowerRequest q 0xAAAA) s = .next t ∧ fld (quadOf t q).ctl 15 0 = 0xAAAA ∧ lnState t lead = 1 ∧
        (∀ k, k < 4 → lnF t (4 * q + k) 59 58 = 2 ∧ lnF t (4 * q + k) 57 56 = 2) ∧ t = { s with lanes := t.lanes, quads := t.quads, lks := t.lks })
    ∧ (∀ lead, lead = 4 * q.val → (∀ k, k < 4 → lnLead s (4 * q + k) = lead) → lnIsLead s lead = true → lnWidth s lead = 4 →
        lnMode s lead = 2 → lnState s lead = 5 → (quadOf s q).ctl = 0xAAAA → (domOf s (0x400 + q)).cur < 2 → (domOf s (0x420 + q)).cur < 2 →
        (domOf s (0x480 + q / 8)).cur < 2 → (panelOf s q).iso = 0 → (lkOf s lead).txSleep = false → (lkOf s lead).rxSleep = false →
        (∀ k, k < 4 → lnF s (4 * q + k) 59 56 = 10) → ∃ t, exec (.laneRetrain q 1) s = .next t ∧ lnState t lead = 1 ∧
          (lkOf t lead).replay = (lkOf s lead).replay ∧ (lkOf t lead).resume = some (lkOf s lead).rxSeq ∧ (quadOf t q).ctl = 0xAAAA)
    ∧ (∀ data ctl abort, strmHeld s q st = false → l.val = 4 * q.val + st.val → lnLead s l = l.val → lnIsLead s l = true → lnState s l = 5 →
        lnMode s l = 1 → fld x.cfg 20 19 ≠ 1 → ∃ t, exec (.streamTx q st data ctl abort) s = .next t ∧
          t = { s with quads := t.quads, lks := t.lks } ∧ strmOf t q st = { strmOf s q st with
            sent := (strmOf s q st).sent ++ [if abort then [] else data ++ [ctl.setWidth 64]] } ∧ lkOf t l = { y with fromQueue := false })
    ∧ (∀ data (ty : Byte), strmHeld s q st = false → l.val = 4 * q.val + st.val → lnLead s l = l.val → lnIsLead s l = true → lkUp s l = true →
        data.length = 4 → 1 ≤ lkUnits s l → y.waiting = [] → y.txSleep = false → y.replay.length < 512 → y.txSeq + 1 ≠ 2 ^ 48 →
        ∃ t, exec (.streamTx q st data (BitVec.ofNat 32 (3 + 4 * ty.toNat)) false) s = .next t ∧ t = { s with quads := t.quads, lks := t.lks } ∧
          lkOf t l = { y with txSeq := y.txSeq + 1,
                              replay := y.replay ++ [{ seq := y.txSeq, ftype := ty.toNat, payload := data.flatMap (fun w => leBytes 8 w.toNat) }],
                              out := y.out ++ [frameBlock y { seq := y.txSeq, ftype := ty.toNat, payload := data.flatMap (fun w => leBytes 8 w.toNat) }] })
    ∧ (∀ f rest data ctl err, l.val = 4 * q.val + st.val → lnLead s l = l.val → lnIsLead s l = true → lnMode s l = 2 → y.got = f :: rest →
        (f.ftype = 0x10 ∨ f.ftype = 0x11) → f.payload.length = 32 → y.rxMid = false →
        ∃ t, exec (.streamRx q st data ctl err) s = .next t ∧ t = { s with quads := t.quads, lks := t.lks } ∧
          lkOf t l = { y with got := rest, rxMid := false } ∧
          strmOf t q st = if strmHeld s q st then { strmOf s q st with dropped := (strmOf s q st).dropped + 1 }
            else { strmOf s q st with rxData := wordsOf f.payload, rxCtl := BitVec.ofNat 32 (3 + 4 * f.ftype), rxErr := false })
    ∧ (∀ data ctl err, l.val = 4 * q.val + st.val → lnLead s l = l.val → lnIsLead s l = true → lnMode s l = 1 → lnState s l = 5 →
        bitOf x.cfg 18 = false → ∃ t, exec (.streamRx q st data ctl err) s = .next t ∧ t = { s with quads := t.quads } ∧
          strmOf t q st = if strmHeld s q st then { strmOf s q st with dropped := (strmOf s q st).dropped + 1 }
            else { strmOf s q st with rxData := data, rxCtl := ctl, rxErr := err })
    ∧ (∀ desc buf, QueueRuns s l → descOwn desc = true → (∀ w ∈ buf, w.pois = false) → 32 ≤ descLen desc → descLen desc ≤ 32 * lkUnits s l →
        descLen desc % 32 = 0 → descLen desc ≤ 8 * buf.length → bitOf (desc.getD 1 0) 3 = false →
        ∃ t u, exec (.dmaTx l desc buf false) s = .next t ∧
          t = dqWord u l (dqAddr x.dqTx i + 8) (setBit (setBit (desc.getD 1 0) 0 false) 3 false) ∧
          u = { s with lanes := u.lanes, lks := u.lks, fresh := u.fresh, routers := u.routers } ∧ fld (laneOf u l).dqCtl 54 36 = dqNext x.dqTx i % 2 ^ 19 ∧
          lkOf u l = lkOf (lkOffer (dqReads (dqReads s l (dqAddr x.dqTx i) 16 false) l (descAddr desc) (descLen desc) false) l (if descEof desc then 2 else 1) ((buf.flatMap (fun w => leBytes 8 w.val.toNat)).take (descLen desc))) l)
    ∧ (∀ desc buf, QueueRuns s l → descOwn desc = true → (∃ w ∈ buf, w.pois = true) →
        ∃ t u, exec (.dmaTx l desc buf false) s = .next t ∧
          t = dqWord u l (dqAddr x.dqTx i + 8) (setBit (setBit (desc.getD 1 0) 0 false) 3 true) ∧
          u = { s with lanes := u.lanes, lks := u.lks, fresh := u.fresh, routers := u.routers } ∧
          fld (laneOf u l).err 15 8 = min 255 (fld x.err 15 8 + 1) ∧ fld (laneOf u l).dqCtl 54 36 = dqNext x.dqTx i % 2 ^ 19 ∧
          lkOf u l = { y with out := y.out ++ [{ kind := ctlABORT }] })
    ∧ (∀ desc buf err, QueueRuns s l → descOwn desc = false → ∃ t, exec (.dmaTx l desc buf err) s = .next t ∧
        t = { dqReads s l (dqAddr x.dqTx i) 16 false with lanes := t.lanes } ∧ laneOf t l = { x with stalled := true } ∧ ∀ k, k ≠ l.val → laneOf t k = laneOf s k)
    ∧ (∀ d0 d1 frame bad f rest, dqRuns s l = true → lnNative s l = true → y.got = f :: rest → (f.ftype = 1 ∨ f.ftype = 2) →
        bitOf d1 0 = true → f.payload.length ≤ fld d0 63 48 → f.payload ≠ [] →
        ∃ t u, exec (.dmaRx l [d0, d1] frame bad) s = .next t ∧
          u = { dqReads s l (dqAddr x.dqRx j) 16 false with lanes := u.lanes, lks := u.lks } ∧
          lkOf u l = { y with got := rest } ∧ fld (laneOf u l).dqCtl 34 16 = dqNext x.dqRx j % 2 ^ 19 ∧
          ∃ w, t = dqWord (dqBytes 64 u l (fld d0 47 0) f.payload) l (dqAddr x.dqRx j + 8) w ∧ bitOf w 0 = false ∧
            bitOf w 1 = decide (f.ftype = 2) ∧ bitOf w 2 = false ∧ fld w 31 16 = f.payload.length % 65536)
    ∧ (∀ frame bad f rest d0 d1, dqRuns s l = true → lnNative s l = true → y.got = f :: rest → (f.ftype = 1 ∨ f.ftype = 2) → bitOf d1 0 = false →
        ∃ t, exec (.dmaRx l [d0, d1] frame bad) s = .next t ∧
          t = { dqReads s l (dqAddr x.dqRx j) 16 false with lanes := t.lanes, lks := t.lks } ∧ lkOf t l = { y with got := rest } ∧
          fld (laneOf t l).dqCtl 15 0 = min 65535 (fld x.dqCtl 15 0 + 1) ∧ fld (laneOf t l).dqCtl 63 16 = fld x.dqCtl 63 16)
    ∧ (∃ t, exec (.dmaKick l) s = .next t ∧ t = { s with lanes := t.lanes } ∧ laneOf t l = { x with stalled := false } ∧
        ∀ k, k ≠ l.val → laneOf t k = laneOf s k)
    ∧ ((wrapOf s (5200 + l)).st = .stopped → ∃ t, exec (.dmaEnable l) s = .next t ∧ t = { s with lanes := t.lanes, wraps := t.wraps } ∧
        (wrapOf t (5200 + l)).st = .waking ∧ bitOf (laneOf t l).dqCtl 63 = true ∧ fld (laneOf t l).dqCtl 54 36 = 0 ∧
        fld (laneOf t l).dqCtl 34 16 = 0 ∧ fld (laneOf t l).dqCtl 61 60 = fld x.dqCtl 61 60 ∧ fld (laneOf t l).dqCtl 15 0 = fld x.dqCtl 15 0)
    ∧ (bitOf x.dqCtl 63 = true → (wrapOf s (5200 + l)).st = .running → ∃ t, exec (.dmaDisable l) s = .next t ∧
        t = { s with lanes := t.lanes, wraps := t.wraps } ∧ (wrapOf t (5200 + l)).st = .draining ∧ bitOf (laneOf t l).dqCtl 63 = false ∧
        fld (laneOf t l).dqCtl 61 0 = fld x.dqCtl 61 0)

/-- R376, R377, R380, R381, R392, R394, R397, R399, R405, R406, R408 and R410. -/
def Obligations.LoadReceives : Prop :=
  ∀ (s : State) (init : BitVec 16) (v : Word) (src : Fin 16) (bytes : List Byte),
    let rx := s.ld.rx ++ bytes
    let from_ := fld v 35 32
    (hubGrant s init.toNat = true → ldState s = 0 → from_ ≤ 4 → (from_ = 2 → ∀ l, l < 8 → lnMode s l = 3) → (from_ = 4 → modeCode s = 1) →
      ∃ t, exec (.loadStart init v) s = .next t ∧ t = { s with ld := t.ld } ∧ Receiving s.ld t.ld from_ ∧ t.ld.ctl = v &&& fldMask 35 0)
    ∧ (hubGrant s init.toNat = false ∨ ldState s ≠ 0 ∨ 4 < from_ ∨ (from_ = 2 ∧ ∃ l, l < 8 ∧ lnMode s l ≠ 3) ∨ (from_ = 4 ∧ modeCode s ≠ 1) →
        ∃ t, exec (.loadStart init v) s = .next t ∧ t = s)
    ∧ (hubGrant s init.toNat = true → s.ld.ctl &&& fldMask 35 0 = s.ld.ctl → (ldState s = 1 ∨ ldState s = 2) →
        ∃ t, exec (.loadAbort init) s = .next t ∧ LoadEnds s t 0x0E)
    ∧ (hubGrant s init.toNat = true → s.ld.ctl &&& fldMask 35 0 = s.ld.ctl → ldState s = 3 →
        ∃ t, exec (.loadAbort init) s = .next t ∧ CommitEnds s t 0x0E)
    ∧ (hubGrant s init.toNat = true → s.ld.ctl &&& fldMask 35 0 = s.ld.ctl → (ldState s = 4 ∨ ldState s = 5) →
        ∃ t, exec (.loadAbort init) s = .next t ∧ t = { s with ld := t.ld, banks := t.banks, guards := t.guards, fresh := t.fresh } ∧ BasteGone s t ∧ ldState t = 0 ∧ ldF t 47 40 = 0x0E)
    ∧ ((ldState s ≠ 1 ∨ src.val ≠ s.ld.src) → ∃ t, exec (.streamData src bytes) s = .next t ∧
        (src.val = 2 → t = { s with lanes := t.lanes } ∧ fld (laneOf t 0).err 23 16 = min 255 (fld (laneOf s 0).err 23 16 + 1) ∧
          ∀ k, k ≠ 0 → laneOf t k = laneOf s k) ∧ (src.val ≠ 2 → t = s))
    ∧ (Takes s src → s.ld.checked = false → s.ld.area = 0 → rx.length < 64 → ∃ t, exec (.streamData src bytes) s = .next t ∧
        t = { s with ld := { s.ld with rx := rx, prog := setFld s.ld.prog 63 32 rx.length } })
    ∧ (Takes s src → s.ld.checked = true → s.ld.area = 2 → s.ld.rx.length ≤ s.ld.want → s.ld.want ≤ 2 ^ 28 →
        ∃ t, exec (.streamData src bytes) s = .next t ∧ t = { s with ld := { s.ld with
          rx := rx.take s.ld.want, prog := setFld s.ld.prog 63 32 (min rx.length s.ld.want) } })
    ∧ (∀ code, Takes s src → s.ld.checked = false → s.ld.rx.length < 64 → rx.length = 64 → s.ld.cold = 0 → s.ld.area = 0 →
        (let h := hdrOf rx
         (code = 1 ∧ h.ok = false)
         ∨ (code = 2 ∧ h.ok = true ∧ ((secState s ≠ 0 ∧ h.signed = false) ∨ (secState s = 2 ∧ h.enc = false)))
         ∨ (code = 3 ∧ h.ok = true ∧ secState s = 0 ∧ h.enc = true ∧ h.keysrc ≠ (bitOf s.sec.state 58).toNat)
         ∨ (code = 7 ∧ h.ok = true ∧ secState s = 0 ∧ h.enc = false ∧ h.kind = 3 ∧ ldPhase s ≠ 2)
         ∨ (code = 4 ∧ h.ok = true ∧ secState s = 0 ∧ h.enc = false ∧ h.kind = 3 ∧ ldPhase s = 2 ∧ modeCode s ≠ 1 ∧ 2 ^ 28 < h.total)
         ∨ (code = 5 ∧ h.ok = true ∧ secState s = 0 ∧ h.enc = false ∧ h.kind = 3 ∧ ldPhase s = 2 ∧ modeCode s ≠ 1 ∧ h.total ≤ 2 ^ 28 ∧
             s.ld.baste = 0)) →
        ∃ t, exec (.streamData src bytes) s = .next t ∧ LoadEnds s t code)
    ∧ (Takes s src → s.ld.checked = false → s.ld.rx.length < 64 → rx.length = 64 → s.ld.area = 0 → (hdrOf rx).ok = true → secState s = 0 →
        (hdrOf rx).enc = false → (hdrOf rx).kind = 1 → (hdrOf rx).panels = 1 → ldPhase s = 0 → modeCode s ≠ 1 → (hdrOf rx).total ≤ 8388608 →
        ∃ t, exec (.streamData src bytes) s = .next t ∧ t = { s with ld := t.ld, banks := t.banks } ∧ t.ld.checked = true ∧
          t.ld.want = (hdrOf rx).total ∧ t.ld.rx = rx ∧ t.ld.area = 1 ∧ ldState t = 1 ∧ ldKind t = 1 ∧ ldF t 31 0 = 1 ∧ ldF t 37 36 = 1 ∧
          (∀ n, n ≠ 640 → bank t n = bank s n) ∧
          ∀ i, i < 8 → bankVal (bank t 640) i = { val := BitVec.ofNat 64 (leNat ((rx.drop (8 * i)).take 8)), pois := false })
    ∧ (let w := fun (i : Nat) => leNat ((bytes.drop (8 * i)).take 8)
       ldState s = 1 → s.ld.src = 0 → s.ld.cold = 1 → s.ld.dir = [] →
        (w 0 = 0x5644495239580001 → leNat (bytes.drop 40) = 0 → ∃ t, exec (.bootDirectoryRead bytes) s = .next t ∧
          t = { s with ld := { s.ld with dir := [w 1, w 2, w 3, w 4], ctl := t.ld.ctl } } ∧ fld t.ld.ctl 31 0 = w 1 % 2 ^ 32 ∧
          fld t.ld.ctl 63 32 = fld s.ld.ctl 63 32) ∧
        (w 0 ≠ 0x5644495239580001 → ∃ t, exec (.bootDirectoryRead bytes) s = .next t ∧ t = { s with ld := { s.ld with
          cold := 0, stat := t.ld.stat } } ∧ ldState t = 0 ∧ ldF t 59 0 = ldF s 59 0))
    ∧ (s.ld.waitMem = true → (basteState s = 0 → ∃ t, exec .basteReady s = .next t ∧ t = { s with ld := { s.ld with waitMem := false } }) ∧
        (basteState s = 1 → ∃ t, exec .basteReady s = .next t ∧ t = s))
    ∧ (s.ld.waitMem = true → ldState s = 1 → s.ld.cold = 4 → (∃ t, exec .basteWaitTimeout s = .next t ∧ LoadEnds s t 0x05) ∧
        (basteState s = 2 → ∃ t, exec .basteReady s = .next t ∧ LoadEnds s t 0x05))
    ∧ (ldState s = 1 → s.ld.cold = 0 → ∃ t, exec .sourceError s = .next t ∧ LoadEnds s t 0x06)
    ∧ (ldState s = 1 → s.ld.cold = 1 → s.ld.dir.getD 2 0 ≠ 0 → ∃ t, exec .sourceError s = .next t ∧
        t = { s with ld := t.ld, banks := t.banks, guards := t.guards, fresh := t.fresh } ∧ BasteGone s t ∧ ldState t = 1 ∧ ldF t 39 39 = 1 ∧ t.ld.cold = 2 ∧ t.ld.src = 0 ∧
        t.ld.rx = [] ∧ fld t.ld.ctl 31 0 = s.ld.dir.getD 2 0 % 2 ^ 32)

/-- R383 to R387, R391, R398, R405, R406, R410, R415 and R419. -/
def Obligations.LoadCommits : Prop :=
  ∀ (s : State) (bad : Bool) (r : SRec) (rest : List Word),
    let h := ldHdr s
    let native := ldState s = 2 ∧ s.ld.recs = [] ∧ s.ld.src ≠ 4
    (ldState s = 1 → s.ld.src ≠ 4 → s.ld.checked = true → s.ld.waitMem = false → s.ld.want ≤ s.ld.rx.length → ldKind s = 3 →
      ∃ t, exec .receiveDone s = .next t ∧ t = { s with ld := { s.ld with stat := t.ld.stat, prog := t.ld.prog } } ∧ ldState t = 2 ∧
        ldF t 59 0 = ldF s 59 0 ∧ fld t.ld.prog 31 0 = 0 ∧ fld t.ld.prog 63 32 = fld s.ld.prog 63 32)
    ∧ (∀ code, native → s.ld.cold = 0 →
        (code = 0x0A ∧ bad = true ∨ code = 0x08 ∧ bad = false ∧ h.signed = true ∧ signedOk s h.bodylen = false
          ∨ code = 0x09 ∧ bad = false ∧ (h.signed = true → signedOk s h.bodylen = true) ∧ ldPlain s = none
          ∨ code = 0x0B ∧ bad = false ∧ (h.signed = true → signedOk s h.bodylen = true) ∧
              ∃ ws, ldPlain s = some ws ∧ recAll ws.length ws = none) →
        ∃ t, exec (.verifyDone bad) s = .next t ∧ LoadEnds s t code)
    ∧ (native → ldKind s = 3 → ldVerify s bad = (0, 0) → ∃ t, exec (.verifyDone bad) s = .next t ∧
        ldState t = 3 ∧ some t.ld.records = ldPlain s ∧ t.ld.isolated = false ∧ ldF t 31 0 = ldF s 31 0 ∧ t.frames = s.frames ∧ t.sec = s.sec ∧
        (∀ p ∈ ldPanels s, panelState t p = 2 ∧ (panelOf t p).iso = 1 ∧ (panelOf t p).seam = true ∧ (panelOf t p).sr = false) ∧
        (∀ p, p ∉ ldPanels s → panelOf t p = panelOf s p) ∧ (∀ n, n / 96 ∉ ldPanels s → bank t n = bank s n))
    ∧ (ldState s = 3 → s.ld.cold = 0 → ∃ t, exec (.commitDone false) s = .next t ∧ CommitEnds s t 0x0F)
    ∧ (∀ k key, ldState s = 3 → s.ld.isolated = true → s.ld.took = true → s.ld.regs = [] → s.ld.secrets = [(k, key)] → s.ld.src ≠ 4 → ldKind s = 3 →
        ∃ t, exec (.commitDone true) s = .next t ∧ (ldState t = 4 ∨ ldState t = 5) ∧ tget [] t.sec.links k = key ∧
          (∀ j, j ≠ k → tget [] t.sec.links j = tget [] s.sec.links j) ∧ t.ld.slot = 0 ∧ t.ld.secrets = [] ∧ t.frames = s.frames ∧
          ∀ p ∈ ldPanels s, panelState t p = 4)
    ∧ (∀ f ws1, Waits s 1 r rest → r.frames h.comp = some [(f, ws1)] → f.col < 149 → ∃ t, exec .frameRecord s = .next t ∧
        t = { s with frames := t.frames, ld := { s.ld with records := rest, prog := stbPast s r } } ∧
        ∀ k, tget [] t.frames k = if k = f.key then ws1 else tget [] s.frames k)
    ∧ (∀ f ws1, Waits s 1 r rest → r.frames h.comp = some [(f, ws1)] → 149 ≤ f.col → f.col < 161 → f.p < 32 → ∃ t, exec .frameRecord s = .next t ∧
        t = { s with frames := t.frames, routers := t.routers, banks := t.banks, ld := { s.ld with records := rest, prog := stbPast s r } } ∧
        (∀ k, tget [] t.frames k = if k = f.key then ws1 else tget [] s.frames k) ∧
        (∀ i, i < 8 → bank t (96 * f.p + 8 * (f.col - 149) + i) = { bank s (96 * f.p + 8 * (f.col - 149) + i) with
          imgCfg := ws1.getD (3 + i) 0, imgOwn := ownerOf (ws1.getD (11 + i) 0) }) ∧
        (routerOf t (tileRouter f.p (f.col - 149))).img = ws1.take 3)
    ∧ (Waits s 3 r rest → ∃ t, exec .regRecord s = .next t ∧ t = { s with ld := { s.ld with
        records := rest, prog := stbPast s r, regs := s.ld.regs ++ pairs r.data } })
    ∧ (∀ a mem n, Waits s 4 r rest → r.mem h.comp = some (a, mem) → memBank a = some n → bankState s n = 0 → (bank s n).busy = false →
        ownerAccepts (bank s n).own 0x11 = true → a % 0x10000 / 8 + mem.length ≤ 8192 → ∃ t, exec .memRecord s = .next t ∧
          t = { s with banks := t.banks, routers := t.routers, fresh := t.fresh, ld := { s.ld with records := rest, prog := stbPast s r } } ∧
          t.routers = (statLoader s a (8 * mem.length) false).routers ∧ (∀ m, m ≠ n → bank t m = bank s m) ∧
          ∀ i, i < mem.length → bankVal (bank t n) (a % 0x10000 / 8 + i) = { val := mem.getD i 0, pois := false })
    ∧ (∀ a mem n, Waits s 4 r rest → s.ld.cold = 0 → r.mem h.comp = some (a, mem) → memBank a = some n → bankState s n = 0 →
        (ownerAccepts (bank s n).own 0x11 = false ∨ (bank s n).busy = true) → ∃ t, exec .memRecord s = .next t ∧ CommitEnds s t 0x0F)
    ∧ (Waits s 5 r rest → ∃ t, exec .secretRecord s = .next t ∧ t = { s with ld := { s.ld with
        records := rest, prog := stbPast s r, secrets := s.ld.secrets ++ [(r.count, r.data)] } })
    ∧ (Waits s 14 r rest → ∃ t, exec .trailerRecord s = .next t ∧ t = { s with ld := { s.ld with
        records := rest, prog := stbPast s r, trailer := r.data.headD 0 } })
    ∧ (Waits s 15 r rest → ∃ t, exec .endRecord s = .next t ∧ t = { s with ld := { s.ld with
        records := rest, prog := stbPast s r, took := true } })
    ∧ (Waits s 6 r rest → ∃ t u, exec .legacyRecord s = .next t ∧ t = legacyWrite u ∧ u.ld.records = rest ∧
        u = { s with ld := u.ld, lg := u.lg } ∧ (s.ld.src = 4 → u.lg = s.lg))

/-- R38, R378, R396, R400 to R403, R412, R414 to R416 and R418. -/
def Obligations.LoadStarts : Prop :=
  ∀ (s : State) (p : PanelId) (pin : Fin 2) (level : Bool),
    let x := panelOf s p
    let mid := s.ld.slot < 3 ∧ s.ld.src ≠ 4 ∧ ldKind s = 3
    let last := s.ld.slot = 3 ∧ s.ld.src ≠ 4
    let held := fun (b : Nat) (t : State) => t.lg = if modeCode s = 2 ∧ 1 ∈ ldPanels s then { s.lg with stat := setFld s.lg.stat b b 0 } else s.lg
    let due := fun (code : Nat) => ldState s = 4 ∧ s.ld.waited = true ∧ slotByte s / 64 = code ∧ s.ld.slot < 4
    (modeCode s ≠ 1 → x.iso = 1 → x.drained = false → ∃ t, exec .isolationDone s = .next t ∧ panelState t p = 3 ∧ FramesBlank t p ∧ (panelOf t p).drained = true ∧
        (ldState s = 3 → t.ld.isolated = true) ∧
        (∀ k, k / 2576 < 32 → (panelOf s (k / 2576)).iso ≠ 1 → tget [] t.frames k = tget [] s.frames k))
    ∧ (modeCode s ≠ 1 → x.iso = 3 → x.drained = false → ∃ t, exec .isolationDone s = .next t ∧ panelState t p = 5 ∧
        (∀ k, k / 2576 = p.val → tget [] t.frames k = tget [] s.frames k))
    ∧ (x.iso ≠ 0 → x.drained = false → ∃ t, exec (.seamFreezeTimeout p) s = .next t ∧ t = { s with panels := t.panels } ∧
        panelOf t p = { x with seam := true, stat := setBit x.stat 58 true } ∧ ∀ q, q ≠ p.val → panelOf t q = panelOf s q)
    ∧ (mid → due 0 → (∀ i ∈ ldPlls s, pllLocked (pllOf s i) = true) → ∃ t, exec .startupPll s = .next t ∧ SlotPast s t 0 ∧
        (∀ i ∈ ldPlls s, bitOf (pllOf t i).stat 63 = true ∧ bitOf (pllOf t i).stat 62 = true) ∧ t = { s with clk := t.clk, ld := t.ld })
    ∧ (mid → due 0 → ∃ t, exec .pllStepTimeout s = .next t ∧ SlotPast s t 0 ∧ t = { s with clk := t.clk, ld := t.ld } ∧
        ∀ i ∈ ldPlls s, pllLocked (pllOf s i) = true → bitOf (pllOf t i).stat 63 = true)
    ∧ (mid → due 1 → (∀ q ∈ s.ld.regs, engPair q = true) → ∃ t, exec .startupOut s = .next t ∧ SlotPast s t 1 ∧
        t = { s with panels := t.panels, lanes := t.lanes, quads := t.quads, ld := t.ld, lg := t.lg } ∧ held 10 t ∧
        (∀ q ∈ ldPanels s, panelOf t q = { panelOf s q with out := true, seam := false }) ∧ ∀ q, q ∉ ldPanels s → panelOf t q = panelOf s q)
    ∧ (mid → due 2 → ∃ t, exec .startupSr s = .next t ∧ SlotPast s t 2 ∧ t = { s with panels := t.panels, ld := t.ld, lg := t.lg } ∧ held 9 t ∧
        (∀ q ∈ ldPanels s, panelOf t q = { panelOf s q with sr := true }) ∧ ∀ q, q ∉ ldPanels s → panelOf t q = panelOf s q)
    ∧ (mid → due 3 → ∃ t, exec .startupWe s = .next t ∧ SlotPast s t 3 ∧ t.frames = s.frames ∧
        (∀ q ∈ ldPanels s, (panelOf t q).we = true ∧ (panelOf t q).sr = (panelOf s q).sr) ∧
        (∀ q, q ∉ ldPanels s → panelOf t q = panelOf s q) ∧ ∀ e, e / 120 ∉ ldPanels s →
          (∀ q ∈ s.ld.regs, ∀ r, pairReg q.1 = some r → r.kind = .engCtl → r.u ≠ e) → eng t e = eng s e)
    ∧ (ldState s = 5 → (slotWait s = 1 + pin.val ∧ level = nbit (slotByte s) 3 ∨ slotWait s = 3 ∧ level = true) →
        ∃ t, exec (.startupWaitMet pin level) s = .next t ∧ t = { s with ld := { s.ld with waited := true, stat := t.ld.stat } } ∧
          ldState t = 4 ∧ ldF t 59 0 = ldF s 59 0)
    ∧ (ldState s = 5 → slotWait s ≠ 3 → fld s.ld.trailer 47 32 ≠ 0 → ∃ t, exec .startupWaitTimeout s = .next t ∧
        t = { s with ld := { s.ld with waited := true, stat := t.ld.stat } } ∧ ldState t = 4 ∧ ldF t 38 38 = 1 ∧
        ldF t 59 39 = ldF s 59 39 ∧ ldF t 37 0 = ldF s 37 0)
    ∧ (last → ldKind s = 2 → due 2 → ∃ t, exec .startupSr s = .next t ∧ ldState t = 0 ∧ ldPhase t = 2 ∧ t.pins.cfgDone = true ∧ ldF t 34 34 = 1 ∧
        ∀ q ∈ ldPanels s, panelState t q = 1 ∧ (panelOf t q).iso = 0 ∧ (panelOf t q).sr = true)
    ∧ (last → ldKind s = 1 → s.ld.cold = 0 → due 2 → ∃ t, exec .startupSr s = .next t ∧ ldState t = 0 ∧ ldPhase t = 1 ∧
        t.pins = s.pins ∧ ∀ q ∈ ldPanels s, panelState t q = 1)
    ∧ (last → ldKind s = 1 → s.ld.cold = 1 → due 2 → ∃ t, exec .startupSr s = .next t ∧ ldState t = 1 ∧ ldPhase t = 1 ∧ t.ld.src = s.ld.src ∧
        t.ld.cold = 3 ∧ (s.ld.src = 0 → fld t.ld.ctl 31 0 = s.ld.dir.getD 1 0 % 2 ^ 32))

/-- R423 to R425, R428, R430, R431, R433, R435, R437, R439, R442 and R443. -/
def Obligations.DarnerScans : Prop :=
  ∀ (s : State) (d : DieId) (p : PanelId) (col : Fin 161) (row : Fin 16) (fix : BitVec 3) (v : Word),
    let x := darnerOf s d
    let q := panelOf s p
    let none_ := popc fix.toNat = 0
    (bitOf x.ctl 63 = true → fld x.stat 63 60 = 2 → ∃ t, exec (.darnerLap d fix false) s = .next t ∧ t = { s with darners := t.darners } ∧
      (∀ e, e ≠ d.val → darnerOf t e = darnerOf s e) ∧ (let y := darnerOf t d
        fld y.stat 63 60 = 2 ∧ fld y.stat 47 32 = (fld x.stat 47 32 + 1) % 65536 ∧ fld y.stat 15 0 = 0x0A48 ∧ y.ctl = x.ctl ∧ y.log = x.log ∧
        bitOf y.stat 58 = (bitOf x.stat 58 || !decide none_) ∧ fld y.err 39 32 = min 255 (fld x.err 39 32 + popc fix.toNat) ∧
        fld y.err 63 40 = fld x.err 63 40 ∧ bitOf y.stat 57 = bitOf x.stat 57))
    ∧ (bitOf x.ctl 63 = true → ∃ t u, exec (.darnerLap d fix true) s = .next t ∧ t = notify u (0x2060 + d) 0 ∧ u = { s with darners := u.darners } ∧
        (let y := darnerOf u d
         y.ctl = 0x8062000000000000 ∧ bitOf y.stat 57 = true ∧ fld y.stat 63 60 = 2 ∧ fld y.err 39 32 = min 255 (fld x.err 39 32 + 3)))
    ∧ (bitOf x.ctl 63 = false → ∃ t, exec (.darnerLap d fix false) s = .next t ∧ t = s)
    ∧ ((∃ t, exec (.darnerFrameCheck p col row [] false) s = .next t ∧ t = s) ∧
        (scanned s p = false → ∀ errs bad, ∃ t, exec (.darnerFrameCheck p col row errs bad) s = .next t ∧ t = s))
    ∧ (∀ e : FrameErr, Checks s p col row → flipCount e.flip = 1 → (∀ h ∈ (drnOf s p).hard, h.1 ≠ frameKey p col row) →
        ∃ t, exec (.darnerFrameCheck p col row [e] false) s = .next t ∧ FrameNoted s t p col row e.word 0x01 false ∧ panelState t p = panelState s p)
    ∧ (∀ e : FrameErr, Checks s p col row → flipCount e.flip = 2 →
        (panelState s p = 0 ∨ panelState s p = 5 → ∃ t, exec (.darnerFrameCheck p col row [e] false) s = .next t ∧
          FrameNoted s t p col row e.word 0x02 true ∧ panelState t p = panelState s p ∧ t.ld = s.ld) ∧
        (panelState s p = 1 → modeCode s ≠ 1 → fld q.ctl 1 0 ≠ 1 → bitOf q.stat 59 = true → s.ld.recs = [] → q.iso ≠ 2 →
          ∃ t, exec (.darnerFrameCheck p col row [e] false) s = .next t ∧ FrameNoted s t p col row e.word 0x02 true ∧ panelState t p = 6 ∧
            t.ld.recs = [p.val] ∧ (panelOf t p).iso = 2 ∧ (panelOf t p).seam = true) ∧
        (panelState s p = 1 → modeCode s ≠ 1 → (fld q.ctl 1 0 = 1 ∨ bitOf q.stat 59 = false) →
          ∃ t, exec (.darnerFrameCheck p col row [e] false) s = .next t ∧ FrameNoted s t p col row e.word 0x02 true ∧ panelState t p = 2 ∧
            t.ld = s.ld ∧ (panelOf t p).iso = 3))
    ∧ ((panelState s p = 1 ∨ panelState s p = 5) → bitOf q.stat 59 = true → s.ld.recs = [] → q.iso ≠ 2 → ∃ t, exec (.panelReload p) s = .next t ∧
        panelState t p = 6 ∧ t.ld.recs = [p.val] ∧ (panelOf t p).iso = 2 ∧ t.frames = s.frames)
    ∧ (panelState s p ≠ 1 → panelState s p ≠ 5 → q.ctl &&& fldMask 1 0 = q.ctl → ∃ t, exec (.panelReload p) s = .next t ∧
        t = { s with panels := t.panels } ∧ ∀ k, panelOf t k = panelOf s k)
    ∧ (s.ld.recs = [p.val] → q.drained = true → twf [] q.copy = true → (∀ e ∈ q.copy, e.1 / 2576 = p.val) →
        ∃ t, exec (.recoveryDone p) s = .next t ∧ panelState t p = 1 ∧ t.ld.recs = [] ∧ (panelOf t p).iso = 0 ∧ (panelOf t p).seam = false ∧
          fld (panelOf t p).stat 47 32 = (fld q.stat 47 32 + 1) % 65536 ∧
          (∀ k, tget [] t.frames k = if k / 2576 = p.val then tget [] q.copy k else tget [] s.frames k) ∧
          (∀ n, (bank t n).words = (bank s n).words ∧ (bank t n).valid = (bank s n).valid ∧ (n / 96 = p.val → (bank t n).own = (bank t n).imgOwn)) ∧
          ∀ e, (eng t e).dm = (eng s e).dm ∧ (eng t e).pm = (eng s e).pm)
    ∧ (∀ written, s.ld.recs = [p.val] → q.drained = true → twf [] q.copy = true → (∀ e ∈ q.copy, e.1 / 2576 = p.val) →
        ∃ t, exec (.recoveryFail p written) s = .next t ∧ panelState t p = 5 ∧ bitOf (panelOf t p).stat 57 = true ∧ t.ld = { s.ld with recs := [] } ∧
          (∀ k, tget [] t.frames k = if k / 2576 = p.val ∧ k < frameAt p written then tget [] q.copy k else tget [] s.frames k) ∧
          (∀ n, bank t n = { bank s n with imgCfg := (bank t n).imgCfg, imgOwn := (bank t n).imgOwn }) ∧ t.engines = s.engines ∧
          ∀ k, k ≠ p.val → panelOf t k = panelOf s k)
    ∧ (bitOf x.ctl 63 = true → ∃ t, exec (.darnerStall d) s = .next t ∧ (let y := darnerOf t d
        y = { x with stat := y.stat, err := y.err } ∧ bitOf y.stat 59 = true ∧ fld y.stat 63 60 = 4 ∧ fld y.stat 58 0 = fld x.stat 58 0 ∧
        fld y.err 31 24 = min 255 (fld x.err 31 24 + 1) ∧ fld y.err 63 32 = fld x.err 63 32) ∧ t.panels = s.panels ∧ t.ld = s.ld ∧ t.frames = s.frames)
    ∧ (∃ t, exec (.darnerCtlWrite d v) s = .next t ∧ t = { s with darners := t.darners } ∧ (∀ e, e ≠ d.val → darnerOf t e = darnerOf s e) ∧
        (let y := darnerOf t d
         y = { x with ctl := v &&& (fldMask 63 63 ||| fldMask 55 48 ||| fldMask 0 0), stat := y.stat } ∧ fld y.stat 59 0 = fld x.stat 59 0 ∧
         fld y.stat 63 60 = if bitOf v 63 = false then 0 else if fld x.stat 63 60 = 0 then 3 else fld x.stat 63 60))
    ∧ (∃ t, exec (.darnerErrClear d) s = .next t ∧ t = { s with darners := t.darners } ∧ darnerOf t d = { x with err := 0 } ∧
        ∀ e, e ≠ d.val → darnerOf t e = darnerOf s e)
    ∧ (ldState s = 0 → s.ld.recs = [] → ∃ t, exec (.pnlRecWrite v) s = .next t ∧ t = { s with panels := t.panels, ld := { s.ld with pnlRec := v &&& (fldMask 63 63 ||| fldMask 47 16) } } ∧ (fld v 47 16 = fld s.ld.pnlRec 47 16 → t.panels = s.panels) ∧
        (fld v 47 16 ≠ fld s.ld.pnlRec 47 16 → ∀ k, bitOf (panelOf t k).stat 59 = false ∧ (panelOf t k).ctl = (panelOf s k).ctl))
    ∧ (ldState s ≠ 0 ∨ s.ld.recs ≠ [] → ∃ t, exec (.pnlRecWrite v) s = .next t ∧ t = s)

/-- R457 to R460 and R463 to R468. -/
def Obligations.LegacyWindow : Prop :=
  ∀ (s : State) (b : List Byte) (bits : List Bool) (key : BitVec 128),
    let l := s.lg
    let dr0 := boundaryWords s 864
    let kw : List Word := [key.setWidth 64, (key >>> 64).setWidth 64]
    (modeCode s = 1 → ldState s = 0 → (panelOf s 1).iso = 0 → ∃ t, exec .lgProgFall s = .next t ∧ lgF t 5 4 = 0 ∧ t.lg.progLow = true ∧
      t.pins.cfgDone = false ∧ panelState t 1 = 2 ∧ (panelOf t 1).iso = 1 ∧ t.frames = s.frames ∧ t.ld = s.ld ∧
      lgF t 31 6 = lgF s 31 6 ∧ ∀ p, p ≠ 1 → panelOf t p = panelOf s p)
    ∧ (modeCode s = 1 → ldState s ≠ 0 → s.ld.src = 4 → ldState s ≤ 2 → s.ld.cold = 0 → (panelOf s 1).iso = 0 → ∃ t, exec .lgProgFall s = .next t ∧
        ldState t = 0 ∧ ldF t 47 40 = 0x0E ∧ lgF t 5 4 = 0 ∧ panelState t 1 = 2)
    ∧ (modeCode s ≠ 1 → ∃ t, exec .lgProgFall s = .next t ∧ t = s)
    ∧ (l.progLow = false → ∃ t, exec .lgProgRise s = .next t ∧ t = s)
    ∧ (modeCode s = 1 → ldState s = 0 → l.progLow = true → (panelOf s 1).drained = true → ∃ t, exec .lgProgRise s = .next t ∧
        panelState t 1 = 0 ∧ FramesBlank t 1 ∧ lgF t 5 5 = 1 ∧ lgF t 3 0 = 1 ∧ lgF t 10 9 = 3 ∧ lgF t 19 16 = lgF s 19 16 ∧
        ldState t = 1 ∧ t.ld.src = 4 ∧ t.ld.area = 1 ∧ ldF t 31 0 = 2 ∧ t.lg.frames = [] ∧ t.lg.opts = none ∧ t.lg.device = false ∧
        t.lg.marker = false ∧ t.lg.finished = false ∧ t.lg.bytes = 0 ∧ ∀ k, k / 2576 ≠ 1 → tget [] t.frames k = tget [] s.frames k)
    ∧ (MayTake s 4 → b.length = 4 → l.frames = [] → lgIdOk (idAnswer s) (beNat b) = true → ∃ t, exec (.lgDevice b) s = .next t ∧ BlockTaken s t 4 ∧
        t.lg = { l with device := true, marker := true, bytes := t.lg.bytes, stat := t.lg.stat })
    ∧ (MayTake s 4 → b.length = 4 → l.frames = [] → lgIdOk (idAnswer s) (beNat b) = false →
        ∃ t, exec (.lgDevice b) s = .next t ∧ LegacyRefused s t 3 0x0C)
    ∧ (MayTake s 4 → b.length = 4 → l.frames = [] → lgOptOk (beNat b) = true → nbit (beNat b) 12 = false →
        ∃ t, exec (.lgOptions b) s = .next t ∧ BlockTaken s t 4 ∧
          t.lg = { l with opts := some (beNat b), ck := beNat b % 8, marker := true, bytes := t.lg.bytes, stat := t.lg.stat })
    ∧ (MayTake s 4 → b.length = 4 → l.frames = [] → lgOptOk (beNat b) = true → nbit (beNat b) 12 = true → legacySlot s = none →
        ∃ t, exec (.lgOptions b) s = .next t ∧ LegacyRefused s t 4 0x0C)
    ∧ (MayTake s 16 → b.length = 16 → l.frames = [] → ∃ t, exec (.lgIv b) s = .next t ∧ BlockTaken s t 16 ∧
        t.lg = { l with iv := true, chain := b, marker := true, bytes := t.lg.bytes, stat := t.lg.stat })
    ∧ (∀ a d c, MayTake s 260 → l.device = true → l.opts.isSome = true → lgEnc l = false → a.length = 2 → d.length = 256 → c.length = 2 →
        lgAddrOk (beNat a) = true → tget [] l.frames (beNat a) = [] →
        (beNat c = crc16 d → ∃ t, exec (.lgFrames (a ++ d ++ c)) s = .next t ∧ BlockTaken s t 260 ∧
          t.lg = { l with frames := t.lg.frames, marker := true, bytes := t.lg.bytes, stat := t.lg.stat } ∧
          ∀ k, tget [] t.lg.frames k = if k = beNat a then d else tget [] l.frames k) ∧
        (beNat c ≠ crc16 d → ∃ t, exec (.lgFrames (a ++ d ++ c)) s = .next t ∧ LegacyRefused s t 2 0x0C))
    ∧ (MayTake s b.length → (l.device = false ∨ l.opts = none) → ∃ t, exec (.lgFrames b) s = .next t ∧ LegacyRefused s t 1 0x0B)
    ∧ (MayTake s 0 → l.device = true → l.opts.isSome = true → ∃ t, exec .lgFinish s = .next t ∧ ldState t = 2 ∧ lgF t 3 0 = 3 ∧
        t.lg = { l with finished := true, marker := true, bytes := l.bytes + 3, stat := t.lg.stat } ∧
        t = { s with lg := t.lg, ld := { s.ld with prog := t.ld.prog, stat := t.ld.stat } })
    ∧ (lgOpen s = true → secState s = 2 → s.ld.cold = 0 → ∃ t, exec (.lgDevice b) s = .next t ∧ LegacyRefused s t 9 0x02)
    ∧ (lgOpen s = false → (∃ t, exec (.lgDevice b) s = .next t ∧ t = s) ∧ (∃ t, exec (.lgOptions b) s = .next t ∧ t = s) ∧
        (∃ t, exec (.lgIv b) s = .next t ∧ t = s) ∧ (∃ t, exec (.lgFrames b) s = .next t ∧ t = s) ∧ ∃ t, exec .lgFinish s = .next t ∧ t = s)
    ∧ (lgTap s = true →
        (∃ t, exec .lgExtest s = .next t ∧ TapHas s t 0x00 dr0) ∧ (∃ t, exec .lgSamplePreload s = .next t ∧ TapHas s t 0x01 dr0) ∧
        (∃ t, exec .lgIdcode s = .next t ∧ TapHas s t 0x0C [if idAnswer s = 1 then 0x32140C0D else 0x42140C0D]) ∧
        (∃ t, exec .lstatus s = .next t ∧ TapHas s t 0x11 [lgStatus s]) ∧
        (∃ t, exec .ldone s = .next t ∧ TapHas s t 0x14 [if bitOf l.stat 4 then 1 else 0]) ∧
        (∃ t, exec .lscan0 s = .next t ∧ TapHas s t 0x20 []) ∧ (∃ t, exec .lscan1 s = .next t ∧ TapHas s t 0x21 []) ∧
        (∃ t, exec .lgBypass s = .next t ∧ TapHas s t 0xFF [0]) ∧
        (∃ t, exec .lgNative s = .next t ∧ t = { s with lg := { l with ir := 0x7E, toNative := true, dr := [] } }) ∧
        (bits.length < 8 → lgOpen s = true → l.bits = [] → l.raw = [] → ∃ t, exec (.lload bits) s = .next t ∧
          t = { s with lg := { l with ir := 0x10, dr := [], bits := bits } }) ∧
        (lgOpen s = true → l.bits = [] → l.raw = [] → l.marker = false → bits = ([0xFF, 0xB5, 0x2E, 0x71, 0xC8] : List Byte).flatMap msbFirst →
          ∃ t, exec (.lload bits) s = .next t ∧ t = { s with lg := { l with ir := 0x10, dr := [], marker := true, bytes := l.bytes + 5 } }) ∧
        (lgOpen s = false → ∃ t, exec (.lload bits) s = .next t ∧ TapHas s t 0x10 []) ∧
        (modeCode s = 1 → ldState s = 0 → (panelOf s 1).iso = 0 → (panelOf s 1).drained = false → ∃ t, exec .lclear s = .next t ∧
          panelState t 1 = 0 ∧ FramesBlank t 1 ∧ lgF t 5 5 = 1 ∧ ldState t = 1 ∧ t.ld.src = 4 ∧ t.lg.ir = 0x12) ∧
        (secState s = 0 → secLock s = false → s.sec.tamperLow = false → ∃ t, exec (.lkey key) s = .next t ∧
          t = { s with lg := { l with ir := 0x13, dr := kw }, sec := { s.sec with bbram := t.sec.bbram, state := t.sec.state } } ∧
          (∀ i, i < 3 → tget 0 t.sec.bbram (6 + i) = (kwWrap kbbr kw).getD i 0) ∧ bitOf (tget 0 t.sec.bbram 9) 0 = true ∧
          bitOf t.sec.state 52 = true ∧ ∀ k, k < 6 ∨ 9 < k → tget 0 t.sec.bbram k = tget 0 s.sec.bbram k) ∧
        (secState s ≠ 0 ∨ secLock s = true ∨ s.sec.tamperLow = true → ∃ t, exec (.lkey key) s = .next t ∧ TapHas s t 0x13 kw))
    ∧ (lgTap s = false → ∀ c ∈ ([.lgExtest, .lgSamplePreload, .lgIdcode, .lstatus, .ldone, .lscan0, .lscan1, .lgBypass, .lgNative, .lload bits,
        .lclear, .lkey key] : List Instr), ∃ t, exec c s = .next t ∧ t = s)

/-- R473 to R489 and R509. -/
def Obligations.ClockSources : Prop :=
  ∀ (s : State) (code : Fin 32) (d : DieId) (khz : Nat) (i : PllId) (v : Word) (k : Fin 2) (init : BitVec 16),
    let key := refKey d code
    let p := pllOf s i
    let r := 16 * fld v 20 16 + fld v 11 8
    let src := fun (n : Nat) (t : State) => fld (clkoutGet t n) 39 32
    let granted := init.toNat < 16 ∨ (init.toNat = 0x10 ∧ fld s.dbg.ctl 63 62 = 2)
    (bitOf (fuseWord s 0) 4 = true → ∃ t, exec .oscTrim s = .next t ∧ t = { s with clk := { s.clk with trimmed := true, ref := setBit s.clk.ref 51 true } })
    ∧ (s.clk.refs.contains key = false → ∃ t, exec (.refLoss code d) s = .next t ∧ t = s)
    ∧ (s.clk.refs.contains key = true → ∃ t u, exec (.refLoss code d) s = .next t ∧ t = faultLog u 0x0F code code ∧
        u = { s with clk := { s.clk with refs := s.clk.refs.filter (· != key), ref := u.clk.ref, plls := u.clk.plls } } ∧
        (code.val < 4 → bitOf u.clk.ref (60 + code) = false ∧ bitOf u.clk.ref (52 + code) = true) ∧ (4 ≤ code.val → u.clk.ref = s.clk.ref) ∧
        (∀ j ∈ pllsOf code d, (pllEn (pllOf s j) = false ∨ pllLocked (pllOf s j) = false ∨ pllUses (pllOf s j) ≠ code.val) → pllOf u j = pllOf s j) ∧
        (∀ j ∈ pllsOf code d, pllEn (pllOf s j) = true → pllLocked (pllOf s j) = true → pllUses (pllOf s j) = code.val →
          (bitOf (pllOf s j).cfg 60 = true → refOk s (j / 10) (pllOther (pllOf s j)) = true → pllOther (pllOf s j) ≠ code.val →
            pllF u j 62 62 = 1 ∧ pllF u j 60 60 = 1 - pllF s j 60 60 ∧ pllF u j 59 59 = 1 ∧ pllF u j 47 0 = pllF s j 47 0) ∧
          (bitOf (pllOf s j).cfg 60 = false → pllF u j 62 61 = 1 ∧ pllF u j 59 59 = 1 ∧
            pllF u j 47 32 = min 65535 (pllF s j 47 32 + 1) ∧ pllF u j 11 0 = 2000)))
    ∧ (recoveredOk s d code = false → ∃ t, exec (.refValid code d khz) s = .next t ∧ t = s)
    ∧ (recoveredOk s d code = true → ∃ t, exec (.refValid code d khz) s = .next t ∧ t = { s with clk := { t.clk with trimmed := s.clk.trimmed } } ∧ refOk t d code = (code.val != 0x1F) ∧
        tget 0 t.clk.nominal key = khz ∧ (code.val = 0 → fld t.clk.ref 50 48 = f0Code khz) ∧ (code.val < 4 → bitOf t.clk.ref (60 + code) = true) ∧
        (∀ j ∈ pllsOf code d, pllEn (pllOf s j) = true → pllLocked (pllOf s j) = true → pllOn1 (pllOf s j) = true → pllRef0 (pllOf s j) = code.val →
          pllOf t j = { pllOf s j with stat := setBit (pllOf s j).stat 60 false }) ∧
        (∀ j ∈ pllsOf code d, pllEn (pllOf s j) = true → pllLocked (pllOf s j) = false → pllCoasting (pllOf s j) = true → bitOf (pllOf s j).cfg 61 = true →
          pllRef0 (pllOf s j) = code.val → code.val ≠ 0x1F → pllF t j 62 60 = 4 ∧ pllF t j 59 32 = pllF s j 59 32) ∧
        ∀ j ∈ pllsOf code d, pllEn (pllOf s j) = false → pllOf t j = pllOf s j)
    ∧ (pllEn p = true → pllLocked p = false → pllCoasting p = false → (domOf s (0x480 + i / 10)).cur ≠ 4 → s.ld.reduced = false →
        (∀ on1, (on1 = false ∧ refOk s (i / 10) (pllRef0 p) = true ∨
            on1 = true ∧ refOk s (i / 10) (pllRef0 p) = false ∧ bitOf p.cfg 60 = true ∧ refOk s (i / 10) (pllRef1 p) = true) →
          ∃ t, exec (.pllLock i) s = .next t ∧ t = { s with clk := { s.clk with plls := t.clk.plls } } ∧ (∀ j, j ≠ i.val → pllOf t j = pllOf s j) ∧
            pllOf t i = { p with stat := (pllOf t i).stat, phase := [0, 0, 0, 0] } ∧ pllF t i 62 60 = (if on1 then 5 else 4) ∧ pllF t i 63 63 = pllF s i 63 63 ∧
            pllF t i 59 12 = pllF s i 59 12 ∧ pllF t i 11 0 = fvcoMhz s i p on1 % 4096))
    ∧ (s.ld.reduced = false → ∃ t, exec (.pllOdivWrite i v) s = .next t ∧ PllOnly s t i ∧
        (pllOf t i).odiv = (pllOf t i).odivSet ∧ (pllOf t i).cfg = p.cfg ∧ (pllOf t i).stat = p.stat ∧ (pllOf t i).phase = p.phase ∧
        ∀ o, o < 4 → fld (pllOf t i).odiv (16 * o + 6) (16 * o) = fld v (16 * o + 6) (16 * o))
    ∧ (s.ld.reduced = true → i.val < 8 → bitOf p.cfg 62 = false → ∃ t, exec (.pllOdivWrite i v) s = .next t ∧
        ∀ o, o < 4 → (let x := fld v (16 * o + 6) (16 * o)
          fld (pllOf t i).odivSet (16 * o + 6) (16 * o) = x ∧ fld (pllOf t i).odiv (16 * o + 6) (16 * o) =
            if x = 0 then 0 else min 127 (max x ((vcoKhz s i p (pllOn1 p) + 199999) / 200000))))
    ∧ (s.ld.reduced = false → ∃ t, exec (.pllCfgWrite i v) s = .next t ∧ PllOnly s t i ∧
        (pllOf t i).cfg = v &&& fldMask 63 22 ∧ (pllOf t i).odiv = p.odiv ∧ pllF t i 63 63 = pllF s i 63 63 ∧ pllF t i 59 12 = pllF s i 59 12 ∧
        (bitOf v 63 = false → pllF t i 62 60 = 0 ∧ pllF t i 11 0 = 0) ∧
        (bitOf v 63 = true → bitOf p.cfg 63 = true → fld v 62 62 = fld p.cfg 62 62 → fld v 59 22 = fld p.cfg 59 22 → (pllOf t i).stat = p.stat))
    ∧ (∀ x : Fin 514, x.val < 512 → (bitOf (rclkCfg s x) 40 = false ∨ (rclkGet s x).src ≠ 3 ∧ (rclkGet s x).pend ≠ some 3) →
        ∃ t, exec (.clockStallReg x) s = .next t ∧ t = s)
    ∧ (∀ x : Fin 514, x.val < 512 → bitOf (rclkCfg s x) 41 = true → bitOf (rclkCfg s x) 40 = true → ((rclkGet s x).src = 3 ∨ (rclkGet s x).pend = some 3) →
        ((rclkGet s x).pend ≠ none ∨ fld (rclkCfg s x) 47 46 = 1 ∨ (rclkGet s x).forced = true) → ∃ t u, exec (.clockStallReg x) s = .next t ∧
        t = notify u (0x3000 + x.val / 64) 0 ∧ u = { s with clk := { s.clk with stalls := u.clk.stalls } } ∧
        (∀ n, tget 0 u.clk.stalls n = if n = x.val / 64 then setBit (tget 0 s.clk.stalls n) (x.val % 64) true else tget 0 s.clk.stalls n))
    ∧ (∀ x : Fin 514, x.val = 512 + k.val → (clkoutSel s k = src k s ∨ clkoutRuns s (clkoutSel s k) = true ∧ clkoutRuns s (src k s) = true) →
        ∃ t, exec (.clockStallReg x) s = .next t ∧ t = { s with clk := { s.clk with outSel := t.clk.outSel } } ∧ clkoutSel t k = src k s)
    ∧ (∀ x : Fin 514, x.val = 512 + k.val → clkoutSel s k ≠ src k s → (clkoutRuns s (clkoutSel s k) = false ∨ clkoutRuns s (src k s) = false) →
        ∃ t, exec (.clockStallReg x) s = .next t ∧ t = clkoutPut s k (setBit (clkoutGet s k) 62 true))
    ∧ (granted → bitOf v 63 = true → (bitOf s.clk.force 61 = true ∨ panelState s (fld v 20 16) ≠ 1 ∨ bitOf (rclkCfg s r) 41 = false) →
        ∃ t, exec (.clockForce init v) s = .next t ∧ t = { s with clk := { s.clk with force := setBit s.clk.force 62 true } })
    ∧ (granted → bitOf v 63 = true → bitOf s.clk.force 61 = false → panelState s (fld v 20 16) = 1 → bitOf (rclkCfg s r) 41 = true →
        ∃ t, exec (.clockForce init v) s = .next t ∧ t = { s with clk := { s.clk with force := t.clk.force }, rclks := t.rclks, cells := t.cells } ∧
          bitOf t.clk.force 61 = true ∧ fld t.clk.force 20 16 = fld v 20 16 ∧ fld t.clk.force 11 8 = fld v 11 8 ∧ fld t.clk.force 1 0 = fld v 1 0 ∧
          (rclkGet t r).src = fld v 1 0 ∧ (rclkGet t r).rst = true ∧ (rclkGet t r).forced = true ∧ (rclkGet t r).pend = none ∧
          (rclkGet t r).swCnt = ((rclkGet s r).swCnt + 1) % 65536 ∧ ∀ x, x ≠ r → rclkGet t x = rclkGet s x)
    ∧ (¬ granted → ∃ t, exec (.clockForce init v) s = .next t ∧ t = s)
    ∧ (bitOf s.clk.force 61 = true → (let x := 16 * fld s.clk.force 20 16 + fld s.clk.force 11 8
        (rclkFed s x = false → ∃ t, exec .forceRelease s = .next t ∧ t = s) ∧ (rclkFed s x = true → ∃ t, exec .forceRelease s = .next t ∧ t = { s with clk := { s.clk with force := setBit s.clk.force 61 false }, rclks := t.rclks } ∧
          rclkGet t x = { rclkGet s x with forced := false } ∧ ∀ y, y ≠ x → rclkGet t y = rclkGet s y)))
    ∧ (∃ t, exec (.clkoutWrite k v) s = .next t ∧ t = { s with clk := { s.clk with out0 := t.clk.out0, out1 := t.clk.out1, outSel := t.clk.outSel } } ∧
        (bitOf v 61 = true ∨ clkoutRuns s (clkoutSel s k) = true ∧ clkoutRuns s (src k t) = true → clkoutSel t k = src k t) ∧
        (bitOf v 61 = false → clkoutRuns s (clkoutSel s k) = false → clkoutSel t k = clkoutSel s k) ∧
        clkoutGet t (1 - k) = clkoutGet s (1 - k) ∧ fld (clkoutGet t k) 63 63 = fld v 63 63 ∧ fld (clkoutGet t k) 55 48 = fld v 55 48 ∧
        fld (clkoutGet t k) 39 32 = (if clkoutSrcOk (fld v 39 32) then fld v 39 32 else fld (clkoutGet s k) 39 32) ∧
        bitOf (clkoutGet t k) 62 = (bitOf (clkoutGet s k) 62 && !bitOf v 62))
    ∧ (∃ t, exec (.clkoutForce k) s = .next t ∧ t = { s with clk := { s.clk with outSel := t.clk.outSel } } ∧ clkoutSel t k = src k s ∧
        clkoutSel t (1 - k) = clkoutSel s (1 - k))

/-- R491 to R501 and R514. -/
def Obligations.PowerSteps : Prop :=
  ∀ (s : State) (d : DieId) (v : Word) (n : Fin 2048) (init : BitVec 16),
    let o := oppOf s d
    let x := domOf s n
    let avs := bitOf s.pwr.avs 63
    let low := oppLOW o
    (o.step ≠ 0 → bitOf o.reg 62 = false → ∃ t, exec (.pwrOppWrite d v) s = .next t ∧ OppOnly s t d ∧ (let y := oppOf t d
        TargetKept o y ∧ fld y.reg 10 8 = fld v 10 8 ∧ fld y.reg 6 4 = fld v 6 4 ∧ fld y.reg 2 0 = fld v 2 0 ∧ fld y.reg 47 15 = fld o.reg 47 15 ∧
        (oppFrozen s = true → oppTGT y = oppTGT o) ∧
        (oppFrozen s = false → oppTGT y = max low (min (fld v 2 0) (max (fld v 6 4) (if oppFree s then o.gov.getD (fld v 10 8) else low))))))
    ∧ (o.step = 3 → o.goal < 8 → AtTarget s d o.goal → ((avs = false) ∨ oppVCUR o = o.goal) → ∃ t, exec (.freqSlewDone d) s = .next t ∧ SlewOnly s t d ∧
        (let y := oppOf t d
         oppCUR y = o.goal ∧ y.step = 0 ∧ bitOf y.reg 63 = false ∧ fld y.reg 47 32 = (fld o.reg 47 32 + 1) % 65536 ∧ oppVCUR y = oppVCUR o))
    ∧ (o.step = 4 → o.goal < 8 → avs = true → o.goal < oppVCUR o → ∃ t, exec (.freqSlewDone d) s = .next t ∧ SlewOnly s t d ∧
        (let y := oppOf t d
         oppCUR y = o.goal ∧ y.step = 5 ∧ oppVCUR y = oppVCUR o ∧ fld y.reg 47 32 = fld o.reg 47 32))
    ∧ (∀ st, (o.step = 1 ∧ st = 2 ∨ o.step = 5 ∧ st = 6) → ∃ t, exec (.avsAck d) s = .next t ∧ OppOnly s t d ∧ oppOf t d = { o with step := st })
    ∧ (o.step = 2 → o.goal < 8 → ∃ t, exec (.voltageSettled d) s = .next t ∧ OppOnly s t d ∧ (let y := oppOf t d
        oppVCUR y = o.goal ∧ y.step = 3 ∧ oppCUR y = oppCUR o ∧ y.goal = o.goal ∧ fld y.reg 63 23 = fld o.reg 63 23))
    ∧ (o.step = 6 → o.goal < 8 → oppCUR o = o.goal → AtTarget s d o.goal → ∃ t, exec (.voltageSettled d) s = .next t ∧ OppOnly s t d ∧
        (let y := oppOf t d
         oppVCUR y = o.goal ∧ oppCUR y = o.goal ∧ y.step = 0 ∧ bitOf y.reg 63 = false ∧ fld y.reg 47 32 = (fld o.reg 47 32 + 1) % 65536))
    ∧ (o.step = 1 ∨ o.step = 5 → oppFrozen s = true → (∃ t u, exec (.avsTimeout d) s = .next t ∧ t = faultLog (notify u (0x3100 + d) 0) 0x10 d d ∧
          OppOnly s u d ∧ oppOf u d = { o with reg := setBit o.reg 62 true }) ∧
        ∃ t, exec (.avsRetry d) s = .next t ∧ t = s)
    ∧ (∀ m, domValid (fld v 42 32) = true → m = fld v 15 1 * 2 → m ≠ 0 → voteAllowed init v = true → (domOf s (fld v 42 32)).cur ≤ 1 →
        (domOf s (0x480 + domDie (fld v 42 32))).cur ≤ 1 → fld v 42 32 < 0x480 → ∃ t, exec (.voteSet init v) s = .next t ∧ DomOnly s t (fld v 42 32) ∧
          domOf t (fld v 42 32) = { domOf s (fld v 42 32) with votes := (domOf s (fld v 42 32)).votes ||| m, cur := 0 })
    ∧ (∀ m, domValid (fld v 42 32) = true → m = fld v 15 1 * 2 → m ≠ 0 → voteAllowed init v = true → (domOf s (fld v 42 32)).cur = 3 →
        (domOf s (0x480 + domDie (fld v 42 32))).cur = 0 → fld v 42 32 < 0x440 → ∃ t, exec (.voteSet init v) s = .next t ∧
          t = { s with pwr := { s.pwr with doms := t.pwr.doms, wake := t.pwr.wake } } ∧ (let y := domOf t (fld v 42 32)
            y.cur = 6 ∧ y.into = 3 ∧ y.lastsrc = 1 ∧ y.votes = (domOf s (fld v 42 32)).votes ||| m) ∧
          bitOf t.pwr.wake 63 = true ∧ fld t.pwr.wake 62 59 = 1 ∧ fld t.pwr.wake 58 48 = fld v 42 32 ∧
          fld t.pwr.wake 31 0 = (fld s.pwr.wake 31 0 + 1) % 2 ^ 32)
    ∧ (domValid (fld v 42 32) = true → voteAllowed init v = true → ∃ t, exec (.voteClr init v) s = .next t ∧ DomOnly s t (fld v 42 32) ∧
        (let y := domOf t (fld v 42 32)
         y = { domOf s (fld v 42 32) with votes := y.votes } ∧
         ∀ b, nbit y.votes b = (nbit (domOf s (fld v 42 32)).votes b && !(decide (1 ≤ b ∧ b < 16) && bitOf v b))))
    ∧ (domValid (fld v 42 32) = false ∨ voteAllowed init v = false → (∃ t, exec (.voteSet init v) s = .next t ∧ t = s) ∧
        ∃ t, exec (.voteClr init v) s = .next t ∧ t = s)
    ∧ (MayDrop s n → dropTo s n (domC0 s n).toNat = 1 → ∃ t, exec (.domainLingerExpire n) s = .next t ∧ DomOnly s t n ∧
        domOf t n = { x with cur := 1, cg := true })
    ∧ (MayDrop s n → dropTo s n (domC0 s n).toNat ≠ 1 → ∃ t, exec (.domainLingerExpire n) s = .next t ∧
        t = { s with pwr := { s.pwr with doms := t.pwr.doms }, wraps := t.wraps, panels := t.panels, banks := t.banks } ∧
        (∀ k, bank t k = if 0x200 ≤ n.val ∧ n.val < 0x400 ∧ k / 8 = n.val - 0x200 then bistFinish (bank s k) else bank s k) ∧
        domOf t n = { x with cur := 5, into := dropTo s n (domC0 s n).toNat, latched := none } ∧ (∀ k, k ≠ n.val → domOf t k = domOf s k) ∧
        (∀ u, u ∈ domUnits n → (wrapOf s u).st = .running → (wrapOf t u).st = .draining) ∧ (∀ u, u ∉ domUnits n → wrapOf t u = wrapOf s u) ∧
        (0x460 ≤ n.val → n.val < 0x480 → (panelOf t (n - 0x460)).seam = true))
    ∧ (x.votes ≠ 0 ∨ hwVote s n = true ∨ domValid n = false → ∃ t, exec (.domainLingerExpire n) s = .next t ∧ t = s)
    ∧ (x.cur = 5 → x.latched = none → x.into = 3 → 0x200 ≤ n.val → n.val < 0x380 → (wrapOf s (4096 + (n.val - 0x200))).enableAfter = false → ∃ t, exec (.domainEntryDone n) s = .next t ∧
        domOf t n = { x with cur := 3 } ∧ (ReadsOnly s (4096 + (n.val - 0x200)) → ∀ k, bank t k = if k / 8 = n.val - 0x200 then bankClear (bank s k) else bank s k) ∧
        (∀ k a, k / 8 = n.val - 0x200 → bankVal (bank t k) a = zeroWord) ∧
        (wrapOf t (4096 + (n.val - 0x200))).st = .stopped)
    ∧ (x.cur = 5 → x.latched = some 4 → x.into = 2 → n.val < 0x1E0 → (domOf s (0x480 + domDie n)).cur ≤ 1 → ∃ t, exec (.domainEntryDone n) s = .next t ∧
        (domOf t n).cur = 6 ∧ (domOf t n).lastsrc = 4 ∧ bitOf t.pwr.wake 62 = true ∧ fld t.pwr.wake 61 48 = 4 * 2048 + n.val ∧
        (AllReads s → t.engines = s.engines))
    ∧ (x.cg = true → x.cur = 0 → x.votes = 0 → hwVote s n = false → ∃ t, exec (.cgRegate n) s = .next t ∧ DomOnly s t n ∧ domOf t n = { x with cur := 1 })

/-- R518, R520, R522 to R525, R529 to R531 and R546: what assertion does. -/
def Obligations.ResetSources : Prop :=
  ∀ (s : State) (init : BitVec 16) (v : Word) (rail : Fin 6) (code : Fin 16) (reach : Fin 8),
    let src := if init = 0x10 then 0x0B else 0x09
    let granted := hubGrant s init.toNat = true
    let cmd := fun (act : Nat) => granted ∧ bitOf v 63 = true ∧ fld v 62 60 = act
    let few := s.rst.active = true ∨ (hubRecent s).length < 3
    let idx := fld v 11 0
    (∀ c n, (c = Instr.hubWatchdogExpire ∧ n = 8 ∨ c = .resetSourceAssert 8 reach ∧ n = 8 ∨ c = .rstCmdHub init v ∧ n = src ∧ cmd 3 ∧ stage s ≠ 23) → few → HubQuiet s →
      ∃ t, exec c s = .next t ∧ HubAway s t n)
    ∧ (few → HubQuiet s → ∃ t, exec .lockstepMismatch s = .next t ∧ HubAway (faultLog s 0x0E 0 0) t 7)
    ∧ (s.rst.active = false → 3 ≤ (hubRecent s).length → s.sec.blow = none → ∃ t, exec .hubWatchdogExpire s = .next t ∧ ColdGone s t 8)
    ∧ (∀ c n, (c = Instr.resetSourceAssert code 4 ∧ n = code.val ∧ 9 ≤ code.val ∧ code.val ≤ 12 ∨ c = .rstCmdWarm init v ∧ n = src ∧ cmd 4
          ∨ c = .rstNLow ∧ n = 6 ∧ bitOf (fuseWord s 0) 13 = true ∧ s.rst.driving = false ∧ s.rst.pinHigh = true) →
        stage s < 22 → ldState s = 0 → s.ld.recs = [] → ∃ t, exec c s = .next t ∧ WarmGone s t n)
    ∧ (∀ c n, (c = Instr.thermalTrip ∧ n = 3 ∨ c = .coreBrownout rail ∧ n = 5 ∨ c = .rstCmdCold init v ∧ n = src ∧ cmd 5
          ∨ c = .rstNLow ∧ n = 6 ∧ bitOf (fuseWord s 0) 13 = false ∧ s.rst.driving = false ∧ s.rst.pinHigh = true) → s.sec.blow = none →
        ∃ t, exec c s = .next t ∧ ColdGone s t n)
    ∧ (∀ c n, (c = Instr.powerOnDetect ∧ n = 1 ∨ c = .vaonBrownout ∧ n = 2 ∨ c = .rstCmdPowerOn init v ∧ n = src ∧ cmd 6) → s.sec.blow = none →
        ∃ t, exec c s = .next t ∧ PowerGone s t n)
    ∧ (s.rst.driving = true ∨ s.rst.pinHigh = false → ∃ t, exec .rstNLow s = .next t ∧ t = s)
    ∧ (cmd 1 → fld v 18 16 = 0 → idx < 3840 → stage s < 22 → ∃ t, exec (.rstCmdUnit init v) s = .next t ∧ (eng t idx).st = .reset ∧ (eng t idx).lastrst = 4 ∧
        t.rst = { s.rst with narrow := s.rst.narrow ++ [(1, 0, idx)] } ∧ (ReadsOnly s idx → (eng t idx).pm = (eng s idx).pm ∧ t.fresh = s.fresh ∧ ∀ e, e ≠ idx → eng t e = eng s e) ∧
        (wrapOf t idx).st = .stopped ∧ t = { s with engines := t.engines, wraps := t.wraps, noc := t.noc, rst := t.rst, fresh := t.fresh })
    ∧ (cmd 2 → idx < 32 → stage s < 22 → ∃ t, exec (.rstCmdPanel init v) s = .next t ∧ t.rst = { s.rst with narrow := s.rst.narrow ++ [(2, 0, idx)] } ∧
        t.frames = s.frames ∧ t.panels = s.panels ∧ (∀ e, e / 120 = idx → (eng t e).st = .reset ∧ (eng t e).lastrst = 5) ∧
        (AllReads s → (∀ e, e / 120 ≠ idx → eng t e = eng s e) ∧ (∀ n, n / 96 ≠ idx → bank t n = bank s n) ∧ ∀ e, e / 120 = idx → (eng t e).pm = (eng s e).pm))
    ∧ (cmd 1 → (4 ≤ fld v 18 16 ∨ fld v 18 16 = 0 ∧ 3840 ≤ idx ∨ fld v 18 16 = 1 ∧ 384 ≤ idx ∨ fld v 18 16 = 2 ∧ 8 ≤ idx ∨ fld v 18 16 = 3 ∧ 32 ≤ idx) →
        ∃ t, exec (.rstCmdUnit init v) s = .next t ∧ t = s)
    ∧ (hubGrant s init.toNat = false → ∀ c ∈ [Instr.rstCmdUnit init v, .rstCmdPanel init v, .rstCmdHub init v, .rstCmdWarm init v, .rstCmdCold init v,
        .rstCmdPowerOn init v, .rstCmdShutdown init v], ∃ t, exec c s = .next t ∧ t = s)
    ∧ (∀ r : Fin 13, 6 ≤ r.val → r.val ≤ 10 → ∃ t, exec (.railBrownout r) s = .next t ∧ t = faultLog s 0x12 r r)

/-- R522, R523, R525, R526, R529, R531 and R547: how episodes end. -/
def Obligations.ResetEnds : Prop :=
  ∀ (s : State) (code : Fin 16),
    let left := fun (n : Nat) => s.rst.asserted.filter (fun a => a.1 != n)
    let drives := fun (l : List (Nat × Nat)) (str : Bool) => s.rst.driving && !(str && (l.filter (fun a => a.1 != 6)).isEmpty)
    (code.val ≠ 1 → ∃ t, exec (.resetSourceRelease code) s = .next t ∧
      t = { s with rst := { s.rst with asserted := left code, driving := drives (left code) s.rst.stretched } })
    ∧ (∃ t, exec (.resetSourceRelease 1) s = .next t ∧ t = s)
    ∧ (∃ t, exec .thermalClear s = .next t ∧ t = { s with rst := { s.rst with asserted := left 3, driving := drives (left 3) s.rst.stretched } })
    ∧ (s.rst.active = true → ∃ t, exec .resetStretchExpire s = .next t ∧
        t = { s with rst := { s.rst with stretched := true, driving := drives s.rst.asserted true } })
    ∧ (s.rst.driving = false → ∃ t, exec .rstNHigh s = .next t ∧ t = { s with rst := { s.rst with pinHigh := true } })
    ∧ (s.rst.driving = true → ∃ t, exec .rstNHigh s = .next t ∧ t = s)
    ∧ (∀ n reach, s.rst.active = true → (∀ a ∈ s.rst.asserted, a.1 = 6) → s.rst.stretched = true → s.sec.zscope = 0 → s.rst.eff = reach → reach ≠ 4 → reach < 8 →
        (4 ≤ reach → s.rst.driving = false ∧ s.rst.pinHigh = true) → s.rst.narrow = [] → n < 16 → (∀ a ∈ s.rst.covered, a.2 ≤ reach ∧ (a.2 = reach → n ≤ a.1)) →
        (n, reach) ∈ s.rst.covered → s.rst.seen < 65536 → ∃ t, exec .resetRelease s = .next t ∧ t = { s with rst := { s.rst with
          asserted := [], active := false, covered := [], seen := 0, eff := 0, stretched := false, cause := t.rst.cause } } ∧
          bitOf t.rst.cause 63 = true ∧ fld t.rst.cause 62 60 = reach ∧ fld t.rst.cause 55 48 = n ∧ fld t.rst.cause 47 32 = s.rst.seen ∧
          fld t.rst.cause 31 0 = (fld s.rst.cause 31 0 + 1) % 2 ^ 32)
    ∧ (s.rst.active = true → s.rst.asserted = [] → s.rst.stretched = true → s.sec.zscope = 0 → s.rst.eff = 4 → s.rst.driving = false → s.rst.pinHigh = true →
        ∃ t, exec .resetRelease s = .next t ∧ t.rst.active = false ∧ t.rst.narrow = [] ∧ t.frames = s.frames ∧
          (∀ p, p < 32 → panelState s p = 1 → panelState t p = 1 ∧ (panelOf t p).sr = true ∧ (panelOf t p).we = true ∧ (panelOf t p).out = true) ∧
          ∀ p, panelState s p ≠ 1 → panelOf t p = panelOf s p)
    ∧ (s.rst.active = true → 4 ≤ s.rst.eff → ((∃ a ∈ s.rst.asserted, a.1 ≠ 6) ∨ s.rst.stretched = false ∨ s.rst.pinHigh = false) →
        ∃ t, exec .resetRelease s = .next t ∧ t = s)

/-- R530, R532 to R535, R537, R539, R540 and R542 to R544. -/
def Obligations.BringUp : Prop :=
  ∀ (s : State) (ohms : Nat) (pud ok : Bool) (sp : Fin 16) (four : BitVec 4) (init : BitVec 16) (v : Word),
    let failing := fld s.rst.state 47 44 ||| (15 - four.toNat)
    let drop := fun (t : State) => stage t = 23 ∧ t.rst.shdnAck = true ∧ t.st.slice = none ∧ ∀ n, n < 2048 → domValid n = true → (domOf t n).cur = if n < 0x480 then 3 else 4
    (s.rst.active = true → s.rst.eff = 6 → s.pins.measured = false → ∃ t, exec (.powerGood ohms pud sp ok false) s = .next t ∧ stage t = 2 ∧ Straps t.rst.state (modeselCode ohms) pud ∧
      t.svc.node = sp.val ∧ t.svc.phys = strapPort ohms ∧ t.rst.asserted = s.rst.asserted.filter (fun a => a.1 != 1) ∧ t.pins.pudsel = pud ∧
      t.pins.hv7is33 = ok ∧ t.pins.measured = true ∧ t.sec = s.sec)
    ∧ (s.rst.active = false ∨ s.rst.eff ≠ 6 ∨ s.pins.measured = true → ∃ t, exec (.powerGood ohms pud sp ok false) s = .next t ∧ t = s)
    ∧ (stage s < 3 → stageOpen s = true → bitOf (tget 0 s.sec.bbram 5) 1 = false → bitOf s.sec.bbr 56 = false → (∀ copy, bitOf s.rst.state 43 = false → slotsBad s = [] → ∃ t, exec (.hubTrims true copy) s = .next t ∧ stage t = 3 ∧
          bitOf t.rst.state 43 = false ∧ bitOf t.rst.state 58 = false ∧ fld t.rst.state 41 32 = fuseInc s ∧ bitOf t.sec.state 51 = true ∧
          secState t = (if bitOf (fuseWord s 2) 0 then 2 else if bitOf (fuseWord s 1) 0 then 1 else 0) ∧ t.sec.memKey = some (trngKey s.fresh) ∧ t.fresh = s.fresh + 4 ∧
          bitOf t.sec.state 53 = bitOf (tget 0 s.sec.bbram 5) 0 ∧ bitOf t.sec.state 52 = bitOf (tget 0 s.sec.bbram 9) 0 ∧
          t = { s with rst := { s.rst with state := t.rst.state }, sec := t.sec, svc := t.svc, fresh := t.fresh,
                       clk := { s.clk with ref := setFld s.clk.ref 59 56 (fld (fuseWord s 0) 3 0) } }) ∧
        (slotsBad s = [] → ∃ t, exec (.hubTrims false true) s = .next t ∧ stage t = 3 ∧ bitOf t.rst.state 43 = true ∧ bitOf t.rst.state 58 = false) ∧
        (∃ t, exec (.hubTrims false false) s = .next t ∧ stage t = 3 ∧ bitOf t.rst.state 58 = true ∧ bitOf t.rst.state 42 = true ∧ t.sec = s.sec) ∧
        (∀ copy, slotsBad s = [7] → bitOf (tget 0 s.sec.bbram 5) 0 = true → slotKey s 0 5 = none → ∃ t u, exec (.hubTrims true copy) s = .next t ∧ Alarmed u t 7 ∧ stage u = 3 ∧
          bitOf u.sec.state 53 = false ∧ bitOf u.sec.state 52 = bitOf (tget 0 s.sec.bbram 9) 0 ∧ u.sec.bbram = s.sec.bbram))
    ∧ (AtStage s 4 → (∃ t, exec (.dieDiscovery 15) s = .next t ∧ stage t = 5 ∧ bitOf t.rst.state 58 = false ∧ fld t.rst.state 47 44 = fld s.rst.state 47 44) ∧
        (four ≠ 15 → ∃ t, exec (.dieDiscovery four) s = .next t ∧ StopsAt s t 5 ∧ fld t.rst.state 47 44 = failing))
    ∧ (AtStage s 5 → four ≠ 15 → ∃ t, exec (.dieTrims four) s = .next t ∧ StopsAt s t 6 ∧ fld t.rst.state 47 44 = failing)
    ∧ (AtStage s 5 → ∃ t u, exec (.dieTrims 15) s = .next t ∧ stage t = 6 ∧ bitOf t.rst.state 58 = false ∧ u = repairApply (dieStep s 15 6) ∧
        t = { u with st := t.st } ∧ (t.st.slice = if quickDue u then some 0 else u.st.slice))
    ∧ (AtStage s 6 → s.st.slice = none → bitOf s.clk.ref 60 = true → fld s.clk.ref 50 48 ≠ 7 →
        (∃ t, exec (.nocLinkTraining true) s = .next t ∧ stage t = 8 ∧ bitOf t.rst.state 58 = false ∧ t.st = { s.st with slice := if s.st.quick then some 6 else none }) ∧
        ∃ t, exec (.nocLinkTraining false) s = .next t ∧ StopsAt s t 8 ∧ fld t.rst.state 47 44 = fld s.rst.state 47 44)
    ∧ (AtStage s 6 → s.st.slice = none → (bitOf s.clk.ref 60 = false ∨ fld s.clk.ref 50 48 = 7) →
        ∃ t, exec (.nocLinkTraining ok) s = .next t ∧ StopsAt s t 7 ∧ fld t.rst.state 47 44 = fld s.rst.state 47 44)
    ∧ (AtStage s 8 → s.st.slice = none → modeCode s = 0 → coldSource s = some 0 → ∃ t, exec .laneReceiverDetect s = .next t ∧ stage t = 10 ∧
        Receiving s.ld t.ld 0 ∧ t.ld.cold = 1 ∧ t = { s with rst := t.rst, svc := t.svc, ld := t.ld })
    ∧ (AtStage s 8 → s.st.slice = none → modeCode s = 0 → coldSource s = none → ∃ t, exec .laneReceiverDetect s = .next t ∧ stage t = 10 ∧ t.ld = s.ld)
    ∧ (stage s ≠ 8 → ∃ t, exec .laneReceiverDetect s = .next t ∧ t = s) ∧ (stage s ≠ 6 → ∃ t, exec (.nocLinkTraining ok) s = .next t ∧ t = s)
    ∧ (stage s ≠ 5 → ∃ t, exec (.dieTrims four) s = .next t ∧ t = s) ∧ (stage s ≠ 4 → ∃ t, exec (.dieDiscovery four) s = .next t ∧ t = s)
    ∧ (s.rst.hubLoading = true → s.rst.active = false → s.rst.asserted = [] → 3 ≤ stage s → stage s ≠ 22 → ∃ t, exec .hubFirmwareReload s = .next t ∧ t.rst.hubLoading = false ∧
        stage t = (if stage s = 3 ∧ bitOf s.rst.state 58 = false then 4 else stage s) ∧
        t = { s with rst := { s.rst with hubLoading := false, state := t.rst.state }, svc := t.svc })
    ∧ (s.rst.hubLoading = false ∨ (∃ a ∈ s.rst.asserted, a.2 = 3) → ∃ t, exec .hubFirmwareReload s = .next t ∧ t = s)
    ∧ (∀ c, (c = Instr.shutdownRequest ∨ c = .rstCmdShutdown init v ∧ hubGrant s init.toNat = true ∧ bitOf v 59 = true) →
        (stage s = 22 → ∃ t, exec c s = .next t ∧ drop t ∧ t.rst.urgent = true ∧ t.sec.bbram = s.sec.bbram) ∧
        (stage s = 23 → ∃ t, exec c s = .next t ∧ t = s))
    ∧ (hubGrant s init.toNat = true → bitOf v 59 = true → stage s < 22 → ∃ t, exec (.rstCmdShutdown init v) s = .next t ∧ drop t ∧ t.sec.bbram = s.sec.bbram)
    ∧ (stage s < 22 → fld s.st.ctl 47 40 ≠ 0 → sliceRuns s 0 = true → ∃ t, exec .shutdownRequest s = .next t ∧ stage t = 22 ∧ t.st.slice = some 0 ∧
        bitOf (tget 0 t.sec.bbram 16) 63 = true ∧ (∀ k, k ≠ 16 → tget 0 t.sec.bbram k = tget 0 s.sec.bbram k) ∧ fld t.st.stat 63 60 = 3 ∧
        (∀ p, p < 32 → panelState s p ≠ 0 → panelState t p = 2 ∧ (panelOf t p).iso = 3 ∧ (panelOf t p).drained = true) ∧
        (∀ g, g < 384 → (wrapOf t (4096 + g)).enableAfter = false) ∧ t.frames = s.frames)

/-- R538, R551, R552, R555, R557, R558, R560, R567, R568, R571, R572 and R623: fuses and BBRAM. -/
def Obligations.FusesAndSlots : Prop :=
  ∀ (s : State) (init : BitVec 16),
    let n := fld s.sec.fusctl 7 0
    let ours := secWriter s init.toNat = true
    let granted := hubGrant s init.toNat = true
    let go := fun (t : State) => exec (.fuseProgram init) s = .next t
    let writes := granted ∧ ours ∧ secState s ≠ 2 ∧ secLock s = false ∧ s.sec.tamperLow = false
    (¬ ours → ∃ t, go t ∧ t = s)
    ∧ (ours → s.sec.vfuse = false → ∃ t, go t ∧ FuseRefused s t 1)
    ∧ (ours → s.sec.vfuse = true → tget false s.sec.commit n = true → ∃ t, go t ∧ FuseRefused s t 2)
    ∧ (ours → s.sec.vfuse = true → tget false s.sec.commit n = false →
        (20 < n → ∃ t, go t ∧ FuseRefused s t 3)
        ∧ (n ≤ 20 → FuseForbidden s n → ∃ t, go t ∧ FuseRefused s t 4)
        ∧ (n ≤ 20 → ¬ FuseForbidden s n → secLock s = true → ∃ t, go t ∧ FuseRefused s t 5)
        ∧ (n ≤ 20 → ¬ FuseForbidden s n → secLock s = false → bitOf s.sec.fusstat 63 = true → ∃ t, go t ∧ FuseRefused s t 7)
        ∧ (n ≤ 20 → ¬ FuseForbidden s n → secLock s = false → bitOf s.sec.fusstat 63 = false → ∃ t, go t ∧
            t = { s with sec := { s.sec with fusctl := s.sec.fusctl &&& 0xFF, blow := some (n, s.sec.fusdata), fusstat := setBit s.sec.fusstat 63 true } }))
    ∧ (s.sec.blow = none → ∀ ok, ∃ t, exec (.fuseProgramDone ok) s = .next t ∧ t = s)
    ∧ (∀ k w ok, s.sec.blow = some (k, w) → ∃ t, exec (.fuseProgramDone ok) s = .next t ∧
        (∀ j, tget 0 t.sec.fuses j = if j = k then tget 0 s.sec.fuses j ||| w else tget 0 s.sec.fuses j) ∧
        (∀ j, tget false t.sec.commit j = (tget false s.sec.commit j || (ok && j == k))) ∧ StateStands s t ∧
        t = { s with sec := { s.sec with fuses := t.sec.fuses, commit := t.sec.commit, blow := t.sec.blow, fusstat := t.sec.fusstat, state := t.sec.state },
                     st := { s.st with todo := t.st.todo, commit := t.st.commit } } ∧
        (ok = true → KeysShown t ∧ SlotsShown s t ∧ fld t.sec.fusstat 47 32 = (fld s.sec.fusstat 47 32 + 1) % 65536) ∧
        (ok = false → t.sec.blow = none ∧ bitOf t.sec.fusstat 63 = false ∧ bitOf t.sec.fusstat 62 = true ∧ fld t.sec.fusstat 61 59 = 6) ∧
        (k < 32 → t.sec.blow = none ∧ bitOf t.sec.fusstat 63 = false ∧ t.st = s.st) ∧
        (32 ≤ k → ok = false → t.st.todo = [] ∧ bitOf t.st.commit 60 = true ∧ bitOf t.st.commit 62 = false) ∧
        (32 ≤ k → ok = true → fld t.st.commit 47 40 = (fld s.st.commit 47 40 + 1) % 256 ∧ (s.st.todo = [] → t.sec.blow = none ∧ bitOf t.st.commit 62 = false) ∧
          ∀ e rest, s.st.todo = e :: rest →
            (∀ m, m ≠ k → RepairFree { s with sec := { s.sec with commit := t.sec.commit, fuses := t.sec.fuses } } m → s.sec.vfuse = true → secLock s = false →
              t.sec.blow = some (m, e) ∧ t.st.todo = rest ∧ bitOf t.sec.fusstat 63 = true) ∧
            ((∀ m, m < 64 → 32 ≤ m → tget false t.sec.commit m = true ∨ tget 0 t.sec.fuses m ≠ 0) →
              t.sec.blow = none ∧ t.st.todo = [] ∧ bitOf t.st.commit 61 = true ∧ bitOf t.st.commit 62 = false)))
    ∧ (writes → (∃ t, exec (.bbrWriteCk init) s = .next t ∧ SlotOnly s t ∧ StateStands s t ∧ KeysShown t ∧ bitOf t.sec.state 53 = true ∧ bitOf t.sec.state 52 = (bitOf s.sec.state 52 && bitOf (tget 0 s.sec.bbram 9) 0) ∧ t.sec.bbr = s.sec.bbr ∧
          (∀ k, tget 0 t.sec.bbram k = if k < 5 then (kwWrap kbbr s.sec.keyin).getD k 0 else if k = 5 then setBit (tget 0 s.sec.bbram 5) 0 true else tget 0 s.sec.bbram k)) ∧
        ∃ t, exec (.bbrWriteLk init) s = .next t ∧ SlotOnly s t ∧ StateStands s t ∧ KeysShown t ∧ bitOf t.sec.state 52 = true ∧ bitOf t.sec.state 53 = (bitOf s.sec.state 53 && bitOf (tget 0 s.sec.bbram 5) 0) ∧ t.sec.bbr = s.sec.bbr ∧
          ∀ k, tget 0 t.sec.bbram k = if 6 ≤ k ∧ k < 9 then (kwWrap kbbr (s.sec.keyin.take 2)).getD (k - 6) 0
            else if k = 9 then setBit (tget 0 s.sec.bbram 9) 0 true else tget 0 s.sec.bbram k)
    ∧ (granted → (¬ ours ∨ secState s = 2 ∨ secLock s = true ∨ s.sec.tamperLow = true) → ∀ c ∈ [Instr.bbrWriteCk init, .bbrWriteLk init],
        ∃ t, exec c s = .next t ∧ t = { s with sec := { s.sec with bbr := setBit s.sec.bbr 59 true, keyin := [0, 0, 0, 0] } })
    ∧ (granted → ours → (∃ t, exec (.bbrEraseCk init) s = .next t ∧ SlotOnly s t ∧ StateStands s t ∧ KeysShown t ∧ SlotsShown s t ∧ t.sec.bbr = s.sec.bbr ∧
          ∀ k, tget 0 t.sec.bbram k = if k < 5 then 0 else if k = 5 then setBit (tget 0 s.sec.bbram 5) 0 false else tget 0 s.sec.bbram k) ∧
        (∃ t, exec (.bbrEraseLk init) s = .next t ∧ SlotOnly s t ∧ StateStands s t ∧ KeysShown t ∧ SlotsShown s t ∧ t.sec.bbr = s.sec.bbr ∧
          ∀ k, tget 0 t.sec.bbram k = if 6 ≤ k ∧ k < 9 then 0 else if k = 9 then setBit (tget 0 s.sec.bbram 9) 0 false else tget 0 s.sec.bbram k) ∧
        ∃ t, exec (.bbrEraseAll init) s = .next t ∧ SlotOnly s t ∧ StateStands s t ∧ KeysShown t ∧ SlotsShown s t ∧ t.sec.bbr = s.sec.bbr ∧ t.sec.bbram = [])
    ∧ (granted → ¬ ours → ∀ c ∈ [Instr.bbrEraseCk init, .bbrEraseLk init, .bbrEraseAll init],
        ∃ t, exec c s = .next t ∧ t = { s with sec := { s.sec with bbr := setBit s.sec.bbr 59 true, keyin := [0, 0, 0, 0] } })
    ∧ (¬ granted → ∀ c ∈ [Instr.bbrWriteCk init, .bbrWriteLk init, .bbrEraseCk init, .bbrEraseLk init, .bbrEraseAll init], ∃ t, exec c s = .next t ∧ t = s)

/-- R560 to R566, R568 and R570: alarms and zeroisation. -/
def Obligations.Alarms : Prop :=
  ∀ (s : State),
    (∃ t, exec .voltageGlitch s = .next t ∧ Alarmed s t 9) ∧ (∃ t, exec .clockGlitch s = .next t ∧ Alarmed s t 10)
    ∧ (bitOf (fuseWord s 0) 15 = false → ∃ t, exec .tamperPin s = .next t ∧ t = s)
    ∧ (bitOf (fuseWord s 0) 15 = true → ∃ t u, exec .tamperPin s = .next t ∧
        (s.rst.active = true ∧ s.rst.eff = 6 → t = u) ∧ (s.rst.active = false ∨ s.rst.eff ≠ 6 → Alarmed u t 8) ∧ u.sec.bbram = [] ∧ u.sec.tamperLow = true ∧
        u.sec.bbr = setBit s.sec.bbr 58 true ∧ KeysShown u ∧ SlotsShown s u ∧ StateStands s u ∧
        u = { s with sec := { s.sec with bbram := [], tamperLow := true, bbr := u.sec.bbr, state := u.sec.state } })
    ∧ (bitOf s.sec.state 51 = true → ∃ t, exec .trngHealthFail s = .next t ∧
        Alarmed { s with sec := { s.sec with state := setBit s.sec.state 51 false } } t 6)
    ∧ (bitOf s.sec.state 51 = false → (∃ t, exec .trngHealthFail s = .next t ∧ t = s) ∧ ∃ t, exec .trngRead s = .next t ∧ t = s)
    ∧ (bitOf s.sec.state 51 = true → ∃ t, exec .trngRead s = .next t ∧ t.sec.drawn.length = 32 ∧
        t = { s with sec := { s.sec with drawn := t.sec.drawn }, fresh := t.fresh })
    ∧ (s.sec.zscope = 0 → ∃ t, exec .zeroisationDone s = .next t ∧ t = s)
    ∧ (s.sec.zscope ≠ 0 → ∃ t, exec .zeroisationDone s = .next t ∧ t.sec.zscope = 0 ∧ bitOf t.sec.bbr 56 = false ∧ bitOf t.sec.state 50 = false ∧
        t.sec.fuses = s.sec.fuses ∧ t.sec.commit = s.sec.commit ∧ t.sec.links = [] ∧ t.sec.almstat = s.sec.almstat ∧ t.rst = s.rst ∧
        (∀ k, tget 0 t.sec.bbram k = if k < 5 ∨ 6 ≤ k ∧ k < 9 then 0 else if k = 5 then setBit (setBit (tget 0 s.sec.bbram 5) 0 false) 1 false
          else if k = 9 then setBit (tget 0 s.sec.bbram 9) 0 false else tget 0 s.sec.bbram k) ∧
        (∀ p, p < 32 → panelState t p = 0 ∧ (∀ k, k / 2576 = p → tget [] t.frames k = [])) ∧
        (∀ e, (eng t e).dm = [] ∧ (eng t e).pm = []) ∧ (∀ n a, rowValid (bank t n) a = false ∧ bankVal (bank t n) a = zeroWord) ∧ ldPhase t = 0 ∧ ldState t = 0 ∧
        (nbit s.sec.zscope 0 = false → t.sec.memKey = none ∧ t.dbg.ctl = s.dbg.ctl) ∧
        (nbit s.sec.zscope 0 = true → (if bitOf s.sec.state 51 then ∃ n, t.sec.memKey = some (trngKey n) ∧ t.fresh = n + 4 else t.sec.memKey = none) ∧
          fld t.dbg.ctl 63 62 = (if bitOf s.dbg.ctl 59 then 2 else fld s.dbg.ctl 63 62) ∧ bitOf t.dbg.ctl 59 = false))

/-- R366, R376, R551, R562 and R574 to R582: the debug port. -/
def Obligations.DebugPort : Prop :=
  ∀ (s : State) (d : DieId) (bits : List Bool) (tok : List Byte) (v : Word),
    let native := nativeTap s = true
    let lvl := dbgLevel s
    let all := s.dbg.cfgBits ++ bits
    let rest := all.drop (8 * (all.length / 8))
    let asked := { s with dbg := { s.dbg with ir := 0x15, tdo := [], cfgBits := rest } }
    let valid := fun (ok : Bool) (b : List Byte) => ok = true ∧ sha384 ((b.drop 40).take 97) = ownerHash s ∧ s.dbg.req ≤ leNat (b.take 1) ∧
      ecdsaOk ((b.drop 40).take 97) (b.take 40) (beNat ((b.drop 144).take 48)) (beNat ((b.drop 192).take 48)) = true
    let open_ := fun (n : Nat) => lvl < n ∧ secLock s = false
    (¬ native → ∀ c ∈ [Instr.tapExtest, .tapSamplePreload, .tapIdcode, .tapExtestPulse, .tapExtestTrain, .tapHighz, .tapDbgctl, .tapDbgchal, .tapDbgtoken tok,
        .tapDap, .tapTrace d, .tapCfgin bits, .tapCfgrd, .tapRstcmd v, .tapObj, .tapBypass], ∃ t, exec c s = .next t ∧ t = s)
    ∧ (∃ t, exec .tapReset s = .next t ∧ t = { s with dbg := { s.dbg with ir := 2, tdo := [], cfgBits := [] }, lg := { s.lg with ir := 0x0C, toNative := false, dr := [] } })
    ∧ (native → (∃ t, exec .tapIdcode s = .next t ∧ TapShows s t 2 [0x1094F4A3]) ∧ (∃ t, exec .tapDbgctl s = .next t ∧ TapShows s t 0x10 [s.dbg.ctl]) ∧
        (∃ t, exec .tapObj s = .next t ∧ TapShows s t 0x18 []) ∧ (∃ t, exec .tapBypass s = .next t ∧ TapShows s t 0x3FF [0]) ∧
        (∃ t, exec .tapSamplePreload s = .next t ∧ TapShows s t 1 t.dbg.tdo ∧ Boundary s 3716 t.dbg.tdo))
    ∧ (native → ∀ p ∈ [(Instr.tapExtest, 0), (.tapExtestPulse, 3), (.tapExtestTrain, 4), (.tapHighz, 5)], ∃ t, exec p.1 s = .next t ∧
        t.dbg = { s.dbg with ir := p.2, tdo := t.dbg.tdo } ∧ (if p.2 = 5 then t.dbg.tdo = [0] else Boundary s 3716 t.dbg.tdo) ∧
        (bscan s = true → TapShows s t p.2 t.dbg.tdo) ∧ t = { s with dbg := t.dbg, lanes := t.lanes, quads := t.quads, lks := t.lks } ∧
        (bscan s = false → ∀ l, l < 128 → lnIsLead s l = true → lnState t l = if lnState s l = 0 then 0 else 1))
    ∧ (native → lvl = 0 → (∃ t, exec .tapDap s = .next t ∧ TapShows s t 0x13 [0]) ∧ ∃ t, exec (.tapTrace d) s = .next t ∧ TapShows s t 0x14 [0])
    ∧ (native → 1 ≤ lvl → (∃ t, exec .tapDap s = .next t ∧ TapShows s t 0x13 t.dbg.tdo ∧ t.dbg.tdo.length = 2 ∧
          (let a := t.dbg.tdo.getD 0 0
           let b := t.dbg.tdo.getD 1 0
           fld a 63 6 + 2 ^ 58 * fld b 5 0 = s.dbg.dapData.toNat ∧ bitOf a 4 = s.dbg.dapBusy ∧ bitOf a 3 = s.dbg.dapPois ∧ fld a 2 1 = s.dbg.dapRes % 4 ∧
           fld b 53 6 = s.dbg.dapAddr % 2 ^ 48 ∧ fld b 55 54 = s.dbg.dapCmd % 4)) ∧
        ((trcOf s d).ring = [] → ∃ t, exec (.tapTrace d) s = .next t ∧ TapShows s t 0x14 [0]) ∧
        ∀ w ws, (trcOf s d).ring = w :: ws → ∃ t, exec (.tapTrace d) s = .next t ∧ TapShows (trcPut s d { trcOf s d with ring := ws }) t 0x14 [w])
    ∧ (native → (lvl = 2 → secState s ≠ 2 → ∃ t, exec .tapCfgrd s = .next t ∧ TapShows s t 0x16 t.dbg.tdo ∧ t.dbg.tdo.length = 32 * 2321 * 368 ∧
          ∀ q i j, q < 32 → j < 368 →
            (i < 2304 → t.dbg.tdo.getD (368 * (2321 * q + i) + j) 0 = frameWord s q (i / 16) (i % 16) j) ∧
            (i < 17 → t.dbg.tdo.getD (368 * (2321 * q + 2304 + i) + j) 0 = frameWord s q (144 + i) 0 j)) ∧
        (lvl ≠ 2 ∨ secState s = 2 → ∃ t, exec .tapCfgrd s = .next t ∧ TapShows s t 0x16 [0]))
    ∧ (native → (ldState s ≠ 1 ∨ s.ld.src ≠ 1 → ∃ t, exec (.tapCfgin bits) s = .next t ∧ t = asked) ∧
        (∀ bytes : List Byte, all = bytes.flatMap (fun b => (List.range 8).map b.getLsbD) ++ rest → rest.length < 8 → ldState s = 1 → s.ld.src = 1 →
          s.ld.waitMem = false → s.ld.recs = [] → ∃ t, exec (.tapCfgin bits) s = .next t ∧ t = ldFeed asked bytes))
    ∧ (native → (lvl ≠ 2 → fld v 62 60 ≠ 5 → fld v 62 60 ≠ 6 → ∃ t, exec (.tapRstcmd v) s = .next t ∧ TapShows s t 0x17 [0]) ∧
        (bitOf v 63 = true → s.sec.blow = none → (let u := { s with dbg := { s.dbg with ir := 0x17, tdo := [] } }
          (fld v 62 60 = 5 → ∃ t, exec (.tapRstcmd v) s = .next t ∧ ColdGone u t 0x0B) ∧ (fld v 62 60 = 6 → ∃ t, exec (.tapRstcmd v) s = .next t ∧ PowerGone u t 0x0B))) ∧
        (lvl = 2 → bitOf v 63 = false → ∃ t, exec (.tapRstcmd v) s = .next t ∧ TapShows s t 0x17 []))
    ∧ (native → ∃ t, exec .tapDbgchal s = .next t ∧ t.dbg = { s.dbg with ir := 0x11, tdo := wordsOf t.dbg.chal, chal := t.dbg.chal } ∧
        t.dbg.chal.length = (if bitOf s.sec.state 51 then 32 else 0) ∧ t = { s with dbg := t.dbg, fresh := s.fresh + 4 })
    ∧ (native → ∃ t, exec (.tapDbgtoken tok) s = .next t ∧
        (let ok := bitOf s.sec.state 51 && s.dbg.chal.length == 32 && (tok.drop 8).take 32 == s.dbg.chal
         t = { s with dbg := { s.dbg with ir := 0x12, tdo := [], chal := [], tokens := s.dbg.tokens ++ [(ok, tok)] } }))
    ∧ (∃ t, exec (.levelRequest 3) s = .next t ∧ t = s)
    ∧ (∀ n : Fin 4, n.val < 3 → (n.val ≤ lvl → ∃ t, exec (.levelRequest n) s = .next t ∧ LevelIs s t n) ∧
        (lvl < n.val → secLock s = true → ∃ t, exec (.levelRequest n) s = .next t ∧ t = s) ∧ (open_ n → secState s = 0 → ∃ t, exec (.levelRequest n) s = .next t ∧ LevelIs s t n) ∧
        (open_ n → secState s = 1 → n.val = 2 → ∃ t, exec (.levelRequest n) s = .next t ∧ ZeroBegins s t) ∧
        (open_ n → (secState s = 2 ∨ secState s = 1 ∧ n.val = 1) → ∃ t, exec (.levelRequest n) s = .next t ∧ t = { s with dbg := { s.dbg with req := n } }))
    ∧ (s.dbg.tokens = [] → ∃ t, exec .tokenDecision s = .next t ∧ t = s)
    ∧ (∀ ok b rest, s.dbg.tokens = (ok, b) :: rest → (let u := { s with dbg := { s.dbg with tokens := rest } }
        (valid ok b → (s.dbg.req = 0 ∨ secLock s = true) → ∃ t, exec .tokenDecision s = .next t ∧ t = { u with dbg := { u.dbg with req := 0 } }) ∧
        (valid ok b → secLock s = false → s.dbg.req = 1 → ∃ t, exec .tokenDecision s = .next t ∧ LevelIs u t 1) ∧
        (valid ok b → secLock s = false → s.dbg.req = 2 → ∃ t, exec .tokenDecision s = .next t ∧ ZeroBegins u t) ∧
        (¬ valid ok b → ∃ t w, exec .tokenDecision s = .next t ∧ bitOf w 58 = true ∧ fld w 57 54 = min 15 (fld s.dbg.ctl 57 54 + 1) ∧
          fld w 63 59 = fld s.dbg.ctl 63 59 ∧ fld w 53 0 = fld s.dbg.ctl 53 0 ∧ (let x := { u with dbg := { u.dbg with ctl := w, req := 0 } }
            if fld s.dbg.ctl 57 54 = 7 then Alarmed x t 11 else t = x))))

/-- R583 to R586, R589, R591 to R594, R596, R597 and R605: run control. -/
def Obligations.RunControl : Prop :=
  ∀ (s : State) (e : EngId) (p : PanelId) (q : Fin 64) (d : DieId) (addr : Addr) (v : Word) (env : ReqEnv) (init : BitVec 16) (mask : BitVec 16),
    let a := addr.toNat / 8 * 8
    let x := eng s e
    let tx := dbgTxAddr e
    let word := fun (w : Word) => ({ val := w, pois := false } : PWord)
    let turned := fun (t : State) (cmd : Nat) (w : Word) => t = { s with dbg := { s.dbg with dapCmd := cmd, dapAddr := a, dapData := w, dapPois := false, dapRes := 2 } }
    let out := 0x1F800000000 ≤ addr.toNat ∧ addr.toNat < 0x1FC00000000
    let tq := wordReq s (0x1000 + e.val) tx (some v) []
    let rq := wordReq s (0x1000 + e.val) (tx + 8) none []
    (¬ DapIdle s → (∃ t, exec (.dapRead addr env) s = .next t ∧ t = s) ∧ (∃ t, exec (.dapWrite addr v env) s = .next t ∧ t = s) ∧
        (∃ t, exec (.vtTxRead e) s = .next t ∧ t = s) ∧ ∃ t, exec (.vtRxWrite e v) s = .next t ∧ t = s)
    ∧ (DapIdle s → dbgLevel s = 0 ∨ dbgLevel s = 1 ∧ regAddr a = false → (∃ t, exec (.dapRead addr env) s = .next t ∧ turned t 1 s.dbg.dapData) ∧
        ∃ t, exec (.dapWrite addr v env) s = .next t ∧ turned t 2 v)
    ∧ (∀ r, DapIdle s → dbgLevel s = 1 → regAddr a = true → regOf a = some r →
        (r.kind.secret = true → ∃ t, exec (.dapRead addr env) s = .next t ∧ turned t 1 s.dbg.dapData) ∧
        (r.kind.secret = false → ∃ t, exec (.dapRead addr env) s = .next t ∧
          Asked (dapSent s a 1 s.dbg.dapData) (wordReq (dapSent s a 1 s.dbg.dapData) 0x10 a none env.flips) env.busy t) ∧
        (r.kind ≠ .dbgCtl → r.kind ≠ .dbgTrc → ∃ t, exec (.dapWrite addr v env) s = .next t ∧ turned t 2 v) ∧
        (r.kind = .dbgCtl ∨ r.kind = .dbgTrc → ∃ t, exec (.dapWrite addr v env) s = .next t ∧
          Asked (dapSent s a 2 v) (wordReq (dapSent s a 2 v) 0x10 a (some v) env.flips) env.busy t))
    ∧ (DapIdle s → dbgLevel s = 2 → (∃ t, exec (.dapRead addr env) s = .next t ∧
          Asked (dapSent s a 1 s.dbg.dapData) (wordReq (dapSent s a 1 s.dbg.dapData) 0x10 a none env.flips) env.busy t) ∧
        ∃ t, exec (.dapWrite addr v env) s = .next t ∧ Asked (dapSent s a 2 v) (wordReq (dapSent s a 2 v) 0x10 a (some v) env.flips) env.busy t)
    ∧ (¬ out → ∃ t, exec (.aliasRead init addr) s = .next t ∧ t = s)
    ∧ (out → init = 0x10 → DapIdle s → dbgLevel s < 2 → ∃ t, exec (.aliasRead init addr) s = .next t ∧ turned t 1 s.dbg.dapData)
    ∧ (out → init = 0x10 → DapIdle s → dbgLevel s = 2 → (let u := dapSent s a 1 s.dbg.dapData
        let r := wordReq u 0x10 a none []
        ∀ d g, RegReach u r d → regOf a = some g → ∃ t ws, exec (.aliasRead init addr) s = .next t ∧ RegAnswers u t r d (·.rdr ws) ∧ ws.length = 4 ∧
          ws[a / 8 % 4]? = some (word (regRead u g)) ∧
          ∀ k, eng t k = { eng s k with txf := (eng s k).txf && !blockHas a k .dbgTx, rxf := (eng s k).rxf && !blockHas a k .dbgRx }))
    ∧ (out → init ≠ 0x10 → (let r := wordReq s init.toNat addr.toNat none []
        ∀ d, RegReach s r d → (∃ k, k < 4 ∧ (regOf (addr.toNat / 32 * 32 + 8 * k)).isSome = true) →
          ∃ t, exec (.aliasRead init addr) s = .next t ∧ RegAnswers s t r d (·.err 1) ∧ t.engines = (noted s r).engines))
    ∧ ((x.st = .running ∨ x.st = .waiting) → x.halting = false → noXtOut s e = true → ∃ t, exec (.debugHalt e) s = .next t ∧ EngOnly s t e ∧
        eng t e = { x with halting := true, hcause := 8, ctl := setBit x.ctl 0 false, stepping := false })
    ∧ ((x.st = .halted ∨ x.st = .reset) → ∃ t, exec (.debugHalt e) s = .next t ∧ EngOnly s t e ∧ eng t e = { x with ctl := setBit x.ctl 0 false })
    ∧ (x.st = .halted → ∃ t, exec (.debugStep e) s = .next t ∧ EngOnly s t e ∧ eng t e = { x with st := .running, stepping := true, hcause := 0 })
    ∧ (x.st ≠ .halted → ∃ t, exec (.debugStep e) s = .next t ∧ t = s)
    ∧ (mask ≠ 0 → ∃ t, exec (.xtrigFire mask) s = .next t ∧ Fired s t mask.toNat) ∧ (∃ t, exec (.xtrigFire 0) s = .next t ∧ t = s)
    ∧ (fld s.dbg.xtch 31 16 ≠ 0 → ∃ t, exec .xtrigPin s = .next t ∧ Fired s t (fld s.dbg.xtch 31 16))
    ∧ (fld s.dbg.xtch 31 16 = 0 → ∃ t, exec .xtrigPin s = .next t ∧ t = s)
    ∧ (let w := tget 0 s.dbg.xtp p
       let i := 0x2000 + 64 * p.val + q.val
       let holds := ∃ b ∈ s.banks, ∃ r ∈ b.2.resv, r.req = i
       (bitOf w 62 = true → holds → ∃ t, exec (.lockDeferTimeout p q) s = .next t ∧ (∀ n, (bank t n).resv = (bank s n).resv.filter (fun r => r.req != i) ∧
            bank t n = { bank s n with resv := (bank t n).resv }) ∧ (∀ k, tget 0 t.dbg.xtp k = if k = p.val then setBit (setBit (setBit w 62 false) 61 true) 63 true else tget 0 s.dbg.xtp k) ∧
            t = { s with banks := t.banks, dbg := { s.dbg with xtp := t.dbg.xtp } }) ∧
       (bitOf w 62 = false ∨ ¬ holds → ∃ t, exec (.lockDeferTimeout p q) s = .next t ∧ t = s) ∧
       ∃ t, exec (.panelResume p) s = .next t ∧ t = { s with dbg := { s.dbg with xtp := t.dbg.xtp } } ∧
         ∀ k, tget 0 t.dbg.xtp k = if k = p.val then setBit w 63 false else tget 0 s.dbg.xtp k)
    ∧ (∃ t, exec (.traceEnable d v) s = .next t ∧ (∀ k, k ≠ d.val → trcOf t k = trcOf s k) ∧ (trcOf t d).ring = [] ∧ bitOf (trcOf t d).reg 63 = true ∧
        bitOf (trcOf t d).reg 62 = (bitOf (trcOf s d).reg 62 && !bitOf v 62) ∧ fld (trcOf t d).reg 11 0 = fld v 11 0 ∧ fld (trcOf t d).reg 61 12 = fld (trcOf s d).reg 61 12 ∧
        t = { s with dbg := { s.dbg with trc := t.dbg.trc } })
    ∧ (∀ d, RegReach s tq d → (x.txf = false → ∃ t, exec (.vtTxWrite e v) s = .next t ∧ RegAnswers s t tq d Req.ack ∧
          eng t e = { eng (noted s tq) e with txf := true, tx := ((carried s tq).dataWord 0).val } ∧ ∀ k, k ≠ e.val → eng t k = eng s k) ∧
        (x.txf = true → ∃ t, exec (.vtTxWrite e v) s = .next t ∧ RegAnswers s t tq d (·.err 0x10) ∧ t.engines = (noted s tq).engines))
    ∧ (∀ d, RegReach s rq d → (x.rxf = true → ∃ t ws, exec (.vtRxRead e) s = .next t ∧ RegAnswers s t rq d (·.rdr ws) ∧ ws[(tx + 8) / 8 % 4]? = some (word x.rx) ∧
          eng t e = { eng (noted s rq) e with rxf := false } ∧ ∀ k, k ≠ e.val → eng t k = eng s k) ∧
        (x.rxf = false → ∃ t, exec (.vtRxRead e) s = .next t ∧ RegAnswers s t rq d (·.err 0x11) ∧ t.engines = (noted s rq).engines))
    ∧ (DapIdle s → dbgLevel s = 2 → (let u := dapSent s (aliasOf tx) 1 s.dbg.dapData
        let r := wordReq u 0x10 (aliasOf tx) none []
        ∀ d, RegReach u r d → ∃ t ws, exec (.vtTxRead e) s = .next t ∧ RegAnswers u t r d (·.rdr ws) ∧ ws[tx / 8 % 4]? = some (word x.tx) ∧
          eng t e = { x with txf := false, rxf := false } ∧ ∀ k, k ≠ e.val → eng t k = eng s k))
    ∧ (DapIdle s → dbgLevel s = 2 → (let u := dapSent s (tx + 8) 2 v
        let r := wordReq u 0x10 (tx + 8) (some v) []
        ∀ d, RegReach u r d → (x.rxf = false → ∃ t, exec (.vtRxWrite e v) s = .next t ∧ RegAnswers u t r d Req.ack ∧ eng t e = { x with rxf := true, rx := v } ∧
            ∀ k, k ≠ e.val → eng t k = eng s k) ∧
          (x.rxf = true → ∃ t, exec (.vtRxWrite e v) s = .next t ∧ RegAnswers u t r d (·.err 0x10) ∧ t.engines = s.engines)))

/-- R251, R610, R614 to R616, R618 to R620, R622 and R623: self-test and repair. -/
def Obligations.SelfTest : Prop :=
  ∀ (s : State) (fails margins : List Nat) (c : Fin 6) (g : Fin 256) (w : Fin 128) (k : Nat),
    let at_ := s.st.slice = some k ∧ s.st.results.length = 8 ∧ k < 52
    let done := fun (t : State) (own : Bool) (j : Nat) => ∀ b, b < 52 →
      bitOf (resWord t 6) b = if b = k then own else (bitOf (resWord s 6) b || decide (k < b ∧ b < j))
    let entry := wireEntry c g 0 w
    let key := 256 * c.val + g.val
    let refused := 22 ≤ stage s ∨ recUsed s = [] ∨ s.sec.vfuse = false ∨ secLock s = true ∨ bitOf s.sec.fusstat 63 = true ∨ bitOf s.st.commit 62 = true
    let held := fun (e : Word) => ∃ n, 32 ≤ n ∧ n < 64 ∧ tget false s.sec.commit n = true ∧ tget 0 s.sec.fuses n = e
    (s.st.slice = none → ∀ cmd ∈ [Instr.selftestSliceEnd fails margins, .sliceTimeout, .selftestTotalTimeout], ∃ t, exec cmd s = .next t ∧ t = s)
    ∧ (at_ → s.st.quick = false → ∀ j, NextSlice s (k + 1) j →
        (∃ t, exec (.selftestSliceEnd fails margins) s = .next t ∧ t.st.slice = some j ∧ TestOnly s t ∧ t.routers = s.routers ∧ SliceLogged s t k fails ∧ done t true j ∧
          (∀ n, n ≠ 6 → n ≠ (sliceBits k).1 → resWord t n = resWord s n) ∧
          (k < 6 ∨ 12 ≤ k → t.st.swaps = s.st.swaps ∧ t.st.spares = s.st.spares ∧ ∀ b, b < 64 →
            bitOf (resWord t (sliceBits k).1) b = if bitOf (sliceBits k).2 b then fails.contains b else bitOf (resWord s (sliceBits k).1) b) ∧
          (∀ i, k = 6 + i → i < 6 → fld (resWord t 5) (8 * i + 7) (8 * i) = margins.headD 0 % 256 ∧
            (∀ b, b < 64 → b / 8 ≠ i → bitOf (resWord t 5) b = bitOf (resWord s 5) b) ∧
            (fails = [] → t.st.swaps = s.st.swaps ∧ t.st.spares = s.st.spares) ∧
            (∀ sp, fails = [128 * g.val + w.val] → wireDone s i g w = false → freeSpare s i g = some sp → SpareTaken s t i g w sp))) ∧
        ∃ t, exec .sliceTimeout s = .next t ∧ t.st.slice = some j ∧ done t false j ∧ (∀ b, b < 64 → bitOf (resWord t 7) b = (bitOf (resWord s 7) b || b == k)) ∧
          (∀ n, n < 6 → resWord t n = resWord s n) ∧ t = { s with st := { s.st with slice := t.st.slice, results := t.st.results } })
    ∧ (at_ → s.st.quick = false → s.rst.urgent = false → LastSlice s (k + 1) → (∃ t, exec (.selftestSliceEnd [] margins) s = .next t ∧ ∃ u : State,
          exec (.selftestSliceEnd [] margins) { s with rst := { s.rst with urgent := true } } = .next u ∧ RecordMade s t u.st.results) ∧
        ∃ t, exec .sliceTimeout s = .next t ∧ ∃ res, RecordMade s t res ∧ (∀ n, n < 6 → res.getD n 0 = resWord s n) ∧ bitOf (res.getD 7 0) k = true)
    ∧ (at_ → s.st.quick = false → s.rst.urgent = false → ∃ t, exec .selftestTotalTimeout s = .next t ∧ RecordMade s t s.st.results)
    ∧ (at_ → s.st.quick = false → s.rst.urgent = true → ∃ t, exec .selftestTotalTimeout s = .next t ∧ stage t = 23 ∧ t.sec = s.sec ∧ t.st.results = s.st.results)
    ∧ (at_ → s.st.quick = true → (k = 0 ∨ 6 ≤ k ∧ k < 12) → (∃ t, exec (.selftestSliceEnd [] margins) s = .next t ∧ TestOnly s t ∧ t.routers = s.routers ∧ fld t.st.stat 63 60 = 2 ∧
          t.st.slice = (if 6 ≤ k ∧ k < 11 then some (k + 1) else none) ∧ t.st.quick = decide (k < 11) ∧ t.st.log = s.st.log) ∧
        (∃ t, exec .selftestTotalTimeout s = .next t ∧ t = s) ∧
        ∃ t, exec .sliceTimeout s = .next t ∧ fld t.st.stat 63 60 = 2 ∧ t.st.slice = (if 6 ≤ k ∧ k < 11 then some (k + 1) else none) ∧ bitOf (resWord t 7) k = true ∧
          t = { s with st := { s.st with slice := t.st.slice, results := t.st.results, stat := t.st.stat, quick := t.st.quick } })
    ∧ (wireDone s c g w = true ∨ s.st.closed.contains c.val = true → ∃ t, exec (.d2dWireFault c g w) s = .next t ∧ t = s)
    ∧ (∀ sp, wireDone s c g w = false → s.st.closed.contains c.val = false → freeSpare s c g = some sp → ∃ t, exec (.d2dWireFault c g w) s = .next t ∧
        SpareTaken s t c g w sp ∧ t.st.swapping = s.st.swapping ++ [c.val] ∧ t.st.closed = s.st.closed ∧ TestOnly s t ∧
        t.st.log = (faultLog s 0x0C c (fld (wireEntry c g sp w) 63 32)).st.log ∧ CrossingIs s t c (fun _ _ => true) ∧ (∀ r, (routerOf t r).closed = (routerOf s r).closed))
    ∧ (wireDone s c g w = false → s.st.closed.contains c.val = false → (∀ sp, sp < 2 → ∃ x ∈ tget [] s.st.spares key, x % 2 = sp) →
        ∃ t, exec (.d2dWireFault c g w) s = .next t ∧ t.st.closed = s.st.closed ++ [c.val] ∧ t.st.swaps = s.st.swaps ∧ t.st.spares = s.st.spares ∧ TestOnly s t ∧
          t.st.log = (faultLog s 0x0D c (fld entry 63 32)).st.log ∧ CrossingIs s t c (fun _ _ => true) ∧ ∀ p ∈ crossingLinks c, nbit (routerOf t p.1).closed p.2 = true)
    ∧ (s.st.swapping.contains c.val = true → ∃ t, exec (.d2dSwapDone c) s = .next t ∧ t.st = { s.st with swapping := s.st.swapping.filter (fun x => x != c.val) } ∧
        TestOnly s t ∧ t.svc = s.svc ∧ CrossingIs s t c (fun r l => nbit (routerOf s r).closed l) ∧ ∀ r, (routerOf t r).closed = (routerOf s r).closed)
    ∧ (s.st.swapping.contains c.val = false → ∃ t, exec (.d2dSwapDone c) s = .next t ∧ t = s)
    ∧ (refused → ∃ t, exec .repairCommit s = .next t ∧ t = { s with st := { s.st with commit := setBit s.st.commit 60 true } })
    ∧ (¬ refused → (∀ e ∈ recEntries (recUsed s), held e) → ∃ t, exec .repairCommit s = .next t ∧ t = { s with st := { s.st with commit := 0, todo := [] } })
    ∧ (∀ pre e rest n, ¬ refused → recEntries (recUsed s) = pre ++ e :: rest → (∀ x ∈ pre, held x) → ¬ held e → (RepairFree s n → ∃ t, exec .repairCommit s = .next t ∧
          t.sec = { s.sec with blow := some (n, e), fusstat := setBit s.sec.fusstat 63 true } ∧ t.st.commit = 0x4000000000000000 ∧
          (∀ x, x ∈ t.st.todo ↔ x ∈ rest ∧ ¬ held x) ∧ t = { s with sec := t.sec, st := { s.st with commit := t.st.commit, todo := t.st.todo } }) ∧
        ((∀ m, m < 64 → ¬ RepairFree s m) → ∃ t, exec .repairCommit s = .next t ∧ t = { s with st := { s.st with commit := 0x2000000000000000, todo := [] } }))

/-- R562, R630, R633 to R640, R642 and R644: sessions. -/
def Obligations.Sessions : Prop :=
  ∀ (s : State) (c : Carrier) (tid level : Byte) (cn : List Byte) (m : Msg) (slot : Fin 8),
    let opening := msgFull 0 0 0 tid.toNat 0 0 (level :: cn)
    let abort0 := fun (h t : State) (code : Nat) => SentRaw h t (carPath c) (carTo s c) (msgFull 9 0 0 tid.toNat 0 0 [BitVec.ofNat 8 code, 0, 0, 0])
    let may := fun (h : State) => level.toNat = 0 ∨ 1 ≤ level.toNat ∧ level.toNat ≤ 2 ∧ bitOf h.sec.state 51 = true ∧ secLock h = false ∧
      bitOf h.sec.state (if level.toNat = 1 then 55 else 54) = true
    let free := fun (h : State) (k : Nat) => k < 8 ∧ (sessOf h k).sid = 0 ∧ ∀ j, j < k → (sessOf h j).sid ≠ 0
    let messages := [(Instr.uluatRead c m, 2), (.uluatWrite c m, 3), (.uluatSubscribe c m, 6), (.uluatClose c m, 7)]
    let y := sessOf s slot
    (carrierUp s c = false → (∃ t, exec (.uluatOpen c tid level cn) s = .next t ∧ t = s) ∧ (∃ t, exec (.uluatAuth c m) s = .next t ∧ t = s) ∧
      ∀ p ∈ messages, ∃ t, exec p.1 s = .next t ∧ t = s)
    ∧ (∀ h, cn.length = 16 → Heard s c opening h → (∀ k, may h → free h k → h.svc.slots.length < 255 → ∃ t, exec (.uluatOpen c tid level cn) s = .next t ∧
          (let x := sessOf t k
           1 ≤ x.sid ∧ x.sid < 256 ∧ (∀ j, j ≠ k → (sessOf h j).sid ≠ x.sid ∧ sessOf t j = sessOf h j) ∧ x.dc.length = (if level.toNat = 0 then 0 else 32) ∧
           x = { level := level.toNat, path := carPath c, init := carTo s c, sid := x.sid, ready := level.toNat == 0, cn := cn, dc := x.dc, opened := h.now, last := h.now } ∧
           t.svc.outbox = h.svc.outbox ++ [{ path := carPath c, init := carTo s c, bytes := msgFull 8 0 x.sid tid.toNat 0 0 (cn ++ x.dc) }] ∧
           t = { h with svc := { h.svc with slots := t.svc.slots, outbox := t.svc.outbox }, fresh := h.fresh + 5 }))
        ∧ (1 ≤ level.toNat → level.toNat ≤ 2 → bitOf h.sec.state 51 = true → (secLock h = true → ∃ t, exec (.uluatOpen c tid level cn) s = .next t ∧ abort0 h t 0xB) ∧
            (secLock h = false → bitOf h.sec.state (if level.toNat = 1 then 55 else 54) = false → ∃ t, exec (.uluatOpen c tid level cn) s = .next t ∧ abort0 h t 0xC))
        ∧ (may h → (∀ k, k < 8 → (sessOf h k).sid ≠ 0) → ∃ t, exec (.uluatOpen c tid level cn) s = .next t ∧ abort0 h t 0xD))
    ∧ (∀ h, Heard s c (msgBytes m 1) h → sessFind h c m.sid = none → ∃ t, exec (.uluatAuth c m) s = .next t ∧
        SentRaw h t (carPath c) (carTo s c) (msgFull 9 0 m.sid.toNat m.tid.toNat 0 0 [1, 0, 0, 0]))
    ∧ (∀ h k, Heard s c (msgBytes m 1) h → sessFind h c m.sid = some k → (sessOf h k).ready = false → m.payload.length = 48 →
        (let x := sessOf h k
         let kl := sessKey h x.level
         let ids := [BitVec.ofNat 8 x.level, BitVec.ofNat 8 x.sid] ++ x.cn ++ x.dc
         (m.payload = hmac kl (ascii "IDVAS-AUTH" ++ ids) → ∃ t, exec (.uluatAuth c m) s = .next t ∧
            t.svc.outbox = h.svc.outbox ++ [{ path := x.path, init := x.init, bytes := msgFull 8 0 x.sid m.tid.toNat 0 0 ((hmac kl (ascii "IDVAS-AUTHD" ++ ids)).take 16) }] ∧
            (∀ j, sessOf t j = if j = k then { x with ready := true, last := h.now, ks := (hmac kl (ascii "IDVAS-SESS" ++ x.cn ++ x.dc)).take 32 } else sessOf h j) ∧
            t = { h with svc := { h.svc with slots := t.svc.slots, outbox := t.svc.outbox } }) ∧
         (x.sid ≠ 0 → m.payload ≠ hmac kl (ascii "IDVAS-AUTH" ++ ids) → (authRecent h).length ≠ 15 → ∃ t u, exec (.uluatAuth c m) s = .next t ∧
            Aborts h u k m.tid.toNat 0 0 0xA 0 ∧ t.svc.outbox = u.svc.outbox ∧ (∀ j, sessOf t j = if j = k then {} else sessOf h j) ∧ t.sec.authFails = authRecent h ++ [h.now] ∧
            t = { h with svc := t.svc, sec := { h.sec with authFails := t.sec.authFails } })))
    ∧ ((y.sid ≠ 0 ∧ y.ready = false → ∃ t, exec (.authTimeout slot) s = .next t ∧ (∀ j, sessOf t j = if j = slot.val then {} else sessOf s j) ∧
          t = { s with svc := { s.svc with slots := t.svc.slots, queue := t.svc.queue, wait := t.svc.wait } }) ∧
        (y.sid = 0 ∨ y.ready = true → ∃ t, exec (.authTimeout slot) s = .next t ∧ t = s))
    ∧ ((y.sid ≠ 0 → y.ready = true → y.streams = false → ∃ t, exec (.sessionIdle slot) s = .next t ∧ Closed s t slot) ∧
        (y.sid = 0 ∨ y.ready = false → ∃ t, exec (.sessionIdle slot) s = .next t ∧ t = s))
    ∧ (∀ p ∈ messages, ∀ h, Heard s c (msgBytes m p.2 ++ m.tag) h →
        (sessFind h c m.sid = none → ∃ t, exec p.1 s = .next t ∧
          SentRaw h t (carPath c) (carTo s c) (msgFull 9 0 m.sid.toNat m.tid.toNat m.sub.toNat m.index.toNat [1, 0, 0, 0])) ∧
        ∀ k, sessFind h c m.sid = some k → (let x := sessOf h k
          x.sid ≠ 0 → x.tagged = true → m.tag ≠ sessTag x 0 x.cntIn (msgBytes m p.2) → x.streams = false → (authRecent h).length ≠ 15 → ∃ t, exec p.1 s = .next t ∧
            Closed { h with svc := { h.svc with discarded := h.svc.discarded + 1 }, sec := { h.sec with authFails := authRecent h ++ [h.now] } } t k))
    ∧ (∀ k u, InSession s c m.sid (msgBytes m 7) m.tag k u → (sessOf u k).streams = false → ∃ t, exec (.uluatClose c m) s = .next t ∧ Closed u t k)
    ∧ (∀ k u on, InSession s c m.sid (msgBytes m 6) m.tag k u → (let x := sessOf u k
        let key := (m.index.toNat, m.sub.toNat)
        let ty := objFind u key.1 key.2
        on < 2 → m.payload = [BitVec.ofNat 8 on] → (∀ v, ty = .val v → v.rd ≤ x.level → (on = 1 → x.subs.contains key = true ∨ x.subs.length < 16) →
            (objNotifies key.1 = false → ∃ t, exec (.uluatSubscribe c m) s = .next t ∧ Aborts u t k m.tid.toNat key.1 key.2 0x11 0) ∧
            (objNotifies key.1 = true → ∃ t w, exec (.uluatSubscribe c m) s = .next t ∧ Oks w t k m.tid.toNat key.1 key.2 [] ∧ (∀ j, j ≠ k → sessOf w j = sessOf u j) ∧
              (let z := sessOf w k
               (∀ e, e ∈ z.subs ↔ e ∈ x.subs ∧ e ≠ key ∨ on = 1 ∧ e = key) ∧ (on = 0 → key ∉ z.notes) ∧ z = { x with subs := z.subs, notes := z.notes }) ∧
              w = { u with svc := { u.svc with slots := w.svc.slots } })) ∧
          (ty = .noObj → ∃ t, exec (.uluatSubscribe c m) s = .next t ∧ Aborts u t k m.tid.toNat key.1 key.2 2 0)))
    ∧ ((s.svc.phys = 0 → ∃ t, exec .canBusOff s = .next t ∧ t = { s with svc := { s.svc with busOffs := s.svc.busOffs + 1, discarded := s.svc.discarded + 1 } }) ∧
        (s.svc.phys ≠ 0 → ∃ t, exec .canBusOff s = .next t ∧ t = s))

/-- R15, R641 to R646, R652, R653, R655 and R656: object accesses. -/
def Obligations.ObjectAccess : Prop :=
  ∀ (s : State) (c : Carrier) (m : Msg) (q : ObjReq) (sid tid seq : Byte) (data tag : List Byte) (last : Bool) (slot : Fin 8) (entry : Fin 32) (v : Word),
    let run := fun (t : State) => exec .objectExecute s = .next t
    let lvl := (sessOf s q.slot).level
    let u64 := fun (w : Word) => leBytes 8 w.toNat
    let gives := fun (u : State) (w : Word) => ∃ t, run t ∧ Oks u t q.slot q.tid q.index q.sub (u64 w)
    let fails := fun (u : State) (code detail : Nat) => ∃ t, run t ∧ Aborts u t q.slot q.tid q.index q.sub code detail
    let y := sessOf s slot
    (∀ k u, InSession s c m.sid (msgBytes m 2) m.tag k u → m.payload = [] → (sessOut u k < 4 → ∃ t, exec (.uluatRead c m) s = .next t ∧
          t = { u with svc := { u.svc with queue := u.svc.queue ++ [accessOf k m false] } }) ∧
        (4 ≤ sessOut u k → ∀ ty, objFind u m.index.toNat m.sub.toNat = .val ty → ty.rd ≤ (sessOf u k).level → ∃ t, exec (.uluatRead c m) s = .next t ∧
          Aborts u t k m.tid.toNat m.index.toNat m.sub.toNat 9 0))
    ∧ (∀ k u, InSession s c m.sid (msgBytes m 3) m.tag k u → sessOut u k < 4 → (m.segd = false → ∃ t, exec (.uluatWrite c m) s = .next t ∧
          t = { u with svc := { u.svc with queue := u.svc.queue ++ [accessOf k m true] } }) ∧
        (m.segd = true → m.index = 0x2002 → m.sub = 0 → 2 ≤ (sessOf u k).level → m.payload.length = 4 → leNat m.payload ≠ 0 → ldState u = 1 → u.ld.src = 3 → segBusy u 0x2002 0 = false →
          ∃ t w, exec (.uluatWrite c m) s = .next t ∧ Oks w t k m.tid.toNat 0x2002 0 [] ∧ w = sessPut u k { sessOf u k with
            segs := (sessOf u k).segs ++ [{ tid := m.tid.toNat, index := 0x2002, sub := 0, write := true, total := leNat m.payload }] }))
    ∧ (s.svc.queue = [] ∨ s.svc.wait ≠ none ∨ s.rst.hubLoading = true → ∃ t, run t ∧ t = s)
    ∧ (∀ u, BridgeTakes s q u → (objFind s q.index q.sub = .noObj → fails u 2 0) ∧ (objFind s q.index q.sub = .noSub → fails u 3 0) ∧
        ∀ ty, objFind s q.index q.sub = .val ty →
          (q.write = false → lvl < ty.rd → fails u 4 ty.rd) ∧
          (q.write = true → ty.wr = 3 → ty.rd ≤ lvl → fails u 5 0) ∧ (q.write = true → ty.wr = 3 → lvl < ty.rd → fails u 4 ty.rd) ∧
          (q.write = true → q.index ≠ 0x1001 → ty.wr < 3 → lvl < ty.wr → fails u 4 ty.wr) ∧
          (q.write = true → ty.code = 5 → ty.wr < 3 → objWrLevel q.index q.data ty ≤ lvl → q.data.length ≠ 8 → fails u 6 0))
    ∧ (∀ u, BridgeTakes s q u → q.write = false → q.sub = 0 → (q.index = 0x1002 → gives u s.rst.cause) ∧ (q.index = 0x1003 → gives u s.rst.state) ∧ (q.index = 0x8000 → gives u s.sec.state) ∧
        (1 ≤ lvl → (q.index = 0x2001 → gives u s.ld.stat) ∧ (q.index = 0x3010 → gives u s.clk.force) ∧ (q.index = 0x3400 → gives u s.gov.ctl) ∧
          (q.index = 0x7002 → gives u s.st.mask) ∧ (q.index = 0x7100 → gives u s.st.ctl) ∧ (q.index = 0x8001 → gives u s.sec.almcfg) ∧ (q.index = 0x8002 → gives u s.sec.almstat) ∧
          (∀ p, p < 32 → q.index = 0x2040 + p → gives u (panelOf s p).stat) ∧ (∀ d, d < 4 → q.index = 0x2060 + d → gives u (darnerOf s d).stat)))
    ∧ (∀ u, BridgeTakes s q u → q.write = true → q.data = u64 v → lvl = 2 → q.sub = 0 →
        (q.index = 0x7002 → ∃ t, run t ∧ Oks { u with st := { u.st with mask := v &&& 0x1FFFFE } } t q.slot q.tid 0x7002 0 []) ∧
        (q.index = 0x7100 → ∃ t, run t ∧ Oks { u with st := { u.st with ctl := v &&& 0x0000FFFF0000001F } } t q.slot q.tid 0x7100 0 []) ∧
        (q.index = 0x1001 → bitOf v 63 = true → fld v 62 60 = 4 → stage s < 22 → ldState s = 0 → s.ld.recs = [] → ∃ t w, run t ∧ Oks u w q.slot q.tid 0x1001 0 [] ∧
          WarmGone w t (if (sessOf s q.slot).path = 0 then 9 else if (sessOf s q.slot).path = 1 then 0xC else 0xA)))
    ∧ (∀ u w, BridgeTakes s q u → q.write = false → 0xA000 ≤ q.index → q.index ≤ 0xAFFF → pubOf s q.index = some w → fld w 35 34 ≤ lvl → ∃ t r, run t ∧ r.cmd = .rd ∧
        r.h.init = 3 ∧ r.h.cls = 2 ∧ r.a = pubAddr w q.index q.sub % 2 ^ 48 ∧ r.h.len = max 1 ((pubLen w + 31) / 32) ∧
        Asked { u with svc := { u.svc with wait := some { req := q, tag := r.h.tag.toNat, len := pubLen w } } } r false t)
    ∧ (∀ k u, InSession s c sid (msgShort 4 last.toNat sid.toNat tid.toNat seq.toNat data) tag k u → (let x := sessOf u k
        let go := fun (t : State) => exec (.uluatSeg c sid tid seq data last tag) s = .next t
        ((∀ g ∈ x.segs, ¬ (g.tid = tid.toNat ∧ g.write = true)) → ∃ t, go t ∧ Aborts u t k tid.toNat 0 0 0xE 0) ∧
        ∀ g, x.segs = [g] → g.tid = tid.toNat → g.write = true → g.index ≠ 0x2002 → (let g1 := { g with data := g.data ++ data, seq := g.seq + 1 }
          let grown := sessPut u k { x with segs := [g1] }
          let acks := fun (a b : State) (retry n : Nat) => Sent a b k (msgShort 5 retry x.sid g.tid (n % 256) [])
          (seq.toNat ≠ g.seq % 256 → ∃ t, go t ∧ acks u t 1 g.seq) ∧
          (seq.toNat = g.seq % 256 → last = false → g1.seq % 8 ≠ 0 → ∃ t, go t ∧ t = grown) ∧
          (seq.toNat = g.seq % 256 → last = false → g1.seq % 8 = 0 → ∃ t, go t ∧ acks grown t 0 g1.seq) ∧
          (seq.toNat = g.seq % 256 → last = true → ∃ t a, go t ∧ acks grown a 0 g1.seq ∧ (let e := sessPut a k { sessOf a k with segs := [] }
            (g1.data.length ≠ g.total → Aborts e t k g.tid g.index g.sub 6 0) ∧
            (g1.data.length = g.total → t = { e with svc := { e.svc with queue := e.svc.queue ++ [{ slot := k, tid := g.tid, write := true, index := g.index, sub := g.sub, data := g1.data }] } }))))))
    ∧ (∀ k u, InSession s c sid (msgShort 5 0 sid.toNat tid.toNat seq.toNat []) tag k u → (let x := sessOf u k
        ((∀ g ∈ x.segs, ¬ (g.tid = tid.toNat ∧ g.write = false)) → ∃ t, exec (.uluatSegack c sid tid seq false tag) s = .next t ∧
          t = { u with svc := { u.svc with discarded := u.svc.discarded + 1 } }) ∧
        ∀ g, x.segs = [g] → g.tid = tid.toNat → g.write = false → seq.toNat = g.seq % 256 → g.acked ≤ g.seq → g.seq < g.acked + 256 → g.total ≤ g.seq * segRoom u x → segRoom u x ≠ 0 →
          ∃ t, exec (.uluatSegack c sid tid seq false tag) s = .next t ∧ t = sessPut u k { x with segs := [] }))
    ∧ ((y.segs = [] → ∃ t, exec (.segmentTimeout slot) s = .next t ∧ t = s) ∧ (∀ g, y.sid ≠ 0 → y.segs = [g] → g.index ≠ 0x2002 → ∃ t, exec (.segmentTimeout slot) s = .next t ∧
        Aborts (sessPut s slot { y with segs := [] }) t slot g.tid g.index g.sub 0xF 0))
    ∧ (∀ u, BridgeTakes s q u → q.slot = slot.val → q.index = 0x1020 → q.sub = 2 → lvl = 2 → (let a := y.bridge.toNat
        (q.write = false → (bridgeOk a = false → ∃ t, exec (.regBridgeRead slot) s = .next t ∧ Aborts u t slot q.tid 0x1020 2 7 0) ∧
          (∀ r, bridgeOk a = true → regOf a = some r → r.kind ≠ .dbgRx → r.kind ≠ .dbgTx → ∃ t, exec (.regBridgeRead slot) s = .next t ∧ Oks u t slot q.tid 0x1020 2 (u64 (regRead s r)))) ∧
        (q.write = true → q.data = u64 v → (bridgeOk a = false → ∃ t, exec (.regBridgeWrite slot v) s = .next t ∧ Aborts u t slot q.tid 0x1020 2 7 0) ∧
          (∀ r, bridgeOk a = true → regOf a = some r → r.kind = .drnErr → ∃ t w, exec (.regBridgeWrite slot v) s = .next t ∧ Oks w t slot q.tid 0x1020 2 [] ∧
            w = { u with darners := w.darners } ∧ ∀ d, darnerOf w d = if d = r.u ∧ bitOf v 0 = true then { darnerOf s d with err := 0 } else darnerOf s d))))
    ∧ (∀ u, BridgeTakes s q u → q.slot = slot.val → q.write = true → q.index = 0x1012 → q.sub = entry.val + 1 → q.data = u64 v → 1 ≤ y.level → (let ours := y.path = 2 ∧ 0x2000 ≤ y.init ∧ y.init < 0x2800 ∧ (y.init - 0x2000) / 64 = fld v 15 11
        (¬ ours → ∃ t, exec (.publicationWrite slot entry v) s = .next t ∧ Aborts u t slot q.tid 0x1012 q.sub 4 1) ∧
        (ours → bitOf v 63 = false ∨ pubRefused s entry v = false → ∃ t w, exec (.publicationWrite slot entry v) s = .next t ∧ Oks w t slot q.tid 0x1012 q.sub [] ∧
          w = { u with svc := { u.svc with pubs := w.svc.pubs } } ∧ ∀ k, tget 0 w.svc.pubs k = if k = entry.val then v &&& 0x8FFFFFFFFFFFFFE0 else tget 0 s.svc.pubs k) ∧
        (ours → bitOf v 63 = true → (0xFFF < fld v 59 48 + fld v 47 40 ∨ fld v 39 36 = 0 ∨ 0xA < fld v 39 36 ∨ panelState s (fld v 15 11) ≠ 1 ∨ bitOf (portCfg s (fld v 15 11) (fld v 10 5)) 1 = false) →
          ∃ t, exec (.publicationWrite slot entry v) s = .next t ∧ Aborts u t slot q.tid 0x1012 q.sub 8 0)))
    ∧ (s.svc.queue = [] → (∃ t, exec (.regBridgeRead slot) s = .next t ∧ t = s) ∧ (∃ t, exec (.regBridgeWrite slot v) s = .next t ∧ t = s) ∧ ∃ t, exec (.publicationWrite slot entry v) s = .next t ∧ t = s)

/-- A step takes the command at the front of the queue; the step on an empty queue is log entry 4's. -/
def Obligations.StepTakesFront : Prop :=
  ∀ (s : State) (c : Instr) (rest : List Instr),
    step { s with pending := c :: rest } = exec c { s with pending := rest }
    ∧ (s.pending = [] → s.rst.hubLoading = true ∨ (∀ k, k < 8 → (sessOf s k).notes = []) → step s = .next { s with now := s.now + 1 })

/-- What reset leaves. That reset is the start of the POWER-ON episode is the model's choice (log entry 12). -/
def Obligations.ResetState : Prop :=
  State.reset.pending = [] ∧ State.reset.rst.active = true ∧ State.reset.rst.eff = 6 ∧ State.reset.rst.asserted = [(1, 6)] ∧ State.reset.rst.driving = true
  ∧ State.reset.rst.hubLoading = true ∧ (∀ p ∈ resetValues, ∀ u k, regRead State.reset { kind := p.1, u := u, k := k } = p.2)
  ∧ (∀ p, panelState State.reset p = 0) ∧ (∀ e, (eng State.reset e).st = .reset ∧ (eng State.reset e).dm = [])
  ∧ (∀ n, (bank State.reset n).words = [] ∧ (bank State.reset n).valid = []) ∧ (∀ n, fuseWord State.reset n = 0) ∧ State.reset.frames = [] ∧ memoryWf State.reset = true

/-- No command of the table stops the block, and none touches the queue. -/
def Obligations.CommandsComplete : Prop :=
  ∀ (c : Instr) (s : State), ∃ t, exec c s = .next t ∧ t.pending = s.pending

/-- R550: the security state. -/
def Obligations.SecurityStateNeverFalls : Prop :=
  (∀ (s : State) (ok copy : Bool), (ok || copy) = true → slotsBad s = [] → stage s < 3 → stageOpen s = true → ∃ t, exec (.hubTrims ok copy) s = .next t ∧ secState t = fusedState s ∧ fusedState t = fusedState s)
  ∧ ∀ s t : State, step s = .next t → fusedState s ≤ fusedState t ∧ (∀ n, fuseWord s n &&& fuseWord t n = fuseWord s n)
    ∧ (secState t = secState s ∨ secState t = fusedState s ∧ (∃ ok copy rest, s.pending = .hubTrims ok copy :: rest) ∨ secState t = 0 ∧ t.rst.active = true ∧ 5 ≤ t.rst.eff)

/-- R524: the fourth HUB episode. -/
def Obligations.FourthHubIsCold : Prop :=
  ∀ (s : State) (c : Instr) (code : Fin 16) (init : BitVec 16) (v : Word) (reach : Fin 8),
    let cmd := c = .rstCmdHub init v ∧ hubGrant s init.toNat = true ∧ code.val = rstSrc init.toNat ∧ bitOf v 63 = true ∧ fld v 62 60 = 3 ∧ stage s ≠ 23
    (c = .hubWatchdogExpire ∧ code = 8 ∨ c = .resetSourceAssert 8 reach ∧ code = 8 ∨ c = .lockstepMismatch ∧ code = 7 ∨ cmd) →
    s.rst.active = false → s.rst.asserted = [] → 3 ≤ (hubRecent s).length → s.sec.blow = none →
    ∃ t u, exec c s = .next t ∧ (if code = 7 then ColdGone (faultLog s 0x0E 0 0) t 7 else ColdGone s t code) ∧
      (s.sec.zscope = 0 → ∃ t1 t2 t3, exec (.resetSourceRelease code) t = .next t1 ∧ exec .resetStretchExpire t1 = .next t2 ∧ exec .rstNHigh t2 = .next t3 ∧
        exec .resetRelease t3 = .next u ∧ u.rst.active = false ∧ bitOf u.rst.cause 63 = true ∧ fld u.rst.cause 62 60 = 5 ∧ fld u.rst.cause 55 48 = code.val)
end

