-- ==== Sys2Proof/Laws/Crypto.lean ====
section
/-! SUPPORT. Lengths of what the hash and the keyed hash give. -/

namespace Sys2Proof.Machine
open Sys2Proof

theorem shaRound_length (x : List Word × List Word) (t : Nat) : (shaRound x t).1.length = 8 := rfl

theorem shaRounds_length (l : List Nat) (x : List Word × List Word) (h : x.1.length = 8) : (l.foldl shaRound x).1.length = 8 := by
  induction l generalizing x with
  | nil => exact h
  | cons t l ih => exact ih _ (shaRound_length x t)

theorem shaBlock_length (h : List Word) (bs : List Byte) (hl : h.length = 8) : (shaBlock h bs).length = 8 := by
  simp [shaBlock, hl, shaRounds_length]

theorem shaBlocks_length (f : Nat → List Byte) (l : List Nat) (h : List Word) (hl : h.length = 8) :
    (l.foldl (fun h i => shaBlock h (f i)) h).length = 8 := by
  induction l generalizing h with
  | nil => exact hl
  | cons i l ih => exact ih _ (shaBlock_length h _ hl)

/-- A digest is 48 bytes long. -/
@[simp] theorem sha384_length (msg : List Byte) : (sha384 msg).length = 48 := by
  have h : ∀ ws : List Word, ws.length = 8 → ((ws.take 6).flatMap (fun w => (leBytes 8 w.toNat).reverse)).length = 48 := by
    intro ws hw
    match ws, hw with
    | [a, b, c, d, e, f, g, h], _ => simp [leBytes]
  exact h _ (shaBlocks_length _ _ _ rfl)

/-- A keyed hash is 48 bytes long. -/
@[simp] theorem hmac_length (key msg : List Byte) : (hmac key msg).length = 48 := sha384_length _

end Sys2Proof.Machine
end

