-- ==== Sys2Proof/Laws/Table.lean ====
section
/-! SUPPORT. Sparse tables: what a read gives after a write, and that every operation keeps the canonical form. -/

namespace Sys2Proof.Machine
open Sys2Proof

variable {α : Type}

/-! ### Reads -/

@[simp] theorem tget_nil (d : α) (i : Nat) : tget d [] i = d := rfl

@[simp] theorem tget_tdel_same (d : α) (t : Tbl α) (i : Nat) : tget d (tdel t i) i = d := by
  induction t with
  | nil => rfl
  | cons p t ih =>
    obtain ⟨k, v⟩ := p
    by_cases h : i = k
    · simpa [tdel, h] using ih
    · simpa [tdel, tget, h] using ih

theorem tget_tdel_other (d : α) (t : Tbl α) (i j : Nat) (h : j ≠ i) : tget d (tdel t i) j = tget d t j := by
  induction t with
  | nil => rfl
  | cons p t ih =>
    obtain ⟨k, v⟩ := p
    by_cases h1 : i = k <;> by_cases h2 : j = k <;> simp_all [tdel, tget]

@[simp] theorem tget_tput_same (d : α) (t : Tbl α) (i : Nat) (x : α) : tget d (tput t i x) i = x := by
  induction t with
  | nil => simp [tput, tget]
  | cons p t ih =>
    obtain ⟨k, v⟩ := p
    simp only [tput]
    split
    · simp [tget]
    · split <;> simp [tget, *]

theorem tget_tput_other (d : α) (t : Tbl α) (i j : Nat) (x : α) (h : j ≠ i) : tget d (tput t i x) j = tget d t j := by
  induction t with
  | nil => simp [tput, tget, h]
  | cons p t ih =>
    obtain ⟨k, v⟩ := p
    simp only [tput]
    split
    · simp [tget, h]
    · split <;> simp_all [tget]

variable [DecidableEq α]

/-- A write is read back. -/
@[simp] theorem tget_tset_same (d : α) (t : Tbl α) (i : Nat) (x : α) : tget d (tset d t i x) i = x := by
  unfold tset
  split
  · rename_i h
    rw [h]
    exact tget_tdel_same d t i
  · exact tget_tput_same d t i x

/-- A write leaves every other key as it was. -/
theorem tget_tset_other (d : α) (t : Tbl α) (i j : Nat) (x : α) (h : j ≠ i) : tget d (tset d t i x) j = tget d t j := by
  unfold tset
  split
  · exact tget_tdel_other d t i j h
  · exact tget_tput_other d t i j x h

theorem tget_tset (d : α) (t : Tbl α) (i j : Nat) (x : α) : tget d (tset d t i x) j = if j = i then x else tget d t j := by
  split
  · subst_vars
    exact tget_tset_same d t _ x
  · exact tget_tset_other d t i j x ‹_›

/-- A key below every listed one reads as the default. -/
theorem tget_of_lt (d : α) (t : Tbl α) : ∀ lo i, twfFrom d lo t = true → i < lo → tget d t i = d := by
  induction t with
  | nil => intro _ _ _ _; rfl
  | cons p t ih =>
    obtain ⟨k, v⟩ := p
    intro lo i h hi
    simp only [twfFrom, Bool.and_eq_true, decide_eq_true_eq] at h
    have : i ≠ k := by omega
    simp only [tget, this, if_false]
    exact ih (k + 1) i h.2 (by omega)

/-! ### The canonical form -/

theorem twfFrom_mono (d : α) (t : Tbl α) (lo lo' : Nat) (h : twfFrom d lo t = true) (hl : lo' ≤ lo) : twfFrom d lo' t = true := by
  cases t with
  | nil => rfl
  | cons p t =>
    obtain ⟨k, v⟩ := p
    simp only [twfFrom, Bool.and_eq_true, decide_eq_true_eq] at h ⊢
    exact ⟨⟨by omega, h.1.2⟩, h.2⟩

theorem twfFrom_tdel (d : α) (t : Tbl α) (i : Nat) : ∀ lo, twfFrom d lo t = true → twfFrom d lo (tdel t i) = true := by
  induction t with
  | nil => intro _ h; exact h
  | cons p t ih =>
    obtain ⟨k, v⟩ := p
    intro lo h
    simp only [twfFrom, Bool.and_eq_true, decide_eq_true_eq] at h
    by_cases hk : i = k
    · simp only [tdel, hk, if_true]
      exact twfFrom_mono d _ (k + 1) lo (hk ▸ ih (k + 1) h.2) (by omega)
    · simp only [tdel, hk, if_false, twfFrom, Bool.and_eq_true, decide_eq_true_eq]
      exact ⟨h.1, ih (k + 1) h.2⟩

theorem twfFrom_tput (d : α) (t : Tbl α) (i : Nat) (x : α) (hx : x ≠ d) :
    ∀ lo, lo ≤ i → twfFrom d lo t = true → twfFrom d lo (tput t i x) = true := by
  induction t with
  | nil => intro lo hl _; simp [tput, twfFrom, hx, hl]
  | cons p t ih =>
    obtain ⟨k, v⟩ := p
    intro lo hl h
    simp only [twfFrom, Bool.and_eq_true, decide_eq_true_eq] at h
    simp only [tput]
    split
    · simp only [twfFrom, Bool.and_eq_true, decide_eq_true_eq]
      exact ⟨⟨hl, hx⟩, ⟨by omega, h.1.2⟩, h.2⟩
    · split
      · subst_vars
        simp only [twfFrom, Bool.and_eq_true, decide_eq_true_eq]
        exact ⟨⟨hl, hx⟩, h.2⟩
      · simp only [twfFrom, Bool.and_eq_true, decide_eq_true_eq]
        exact ⟨h.1, ih (k + 1) (by omega) h.2⟩

/-- A write keeps the canonical form: writing the default removes the entry. -/
theorem twf_tset (d : α) (t : Tbl α) (i : Nat) (x : α) (h : twf d t = true) : twf d (tset d t i x) = true := by
  unfold tset
  split
  · exact twfFrom_tdel d t i 0 h
  · exact twfFrom_tput d t i x ‹_› 0 (by omega) h

theorem tdel_of_lt (d : α) (t : Tbl α) : ∀ lo i, twfFrom d lo t = true → i < lo → tdel t i = t := by
  induction t with
  | nil => intro _ _ _ _; rfl
  | cons p t ih =>
    obtain ⟨k, v⟩ := p
    intro lo i h hi
    simp only [twfFrom, Bool.and_eq_true, decide_eq_true_eq] at h
    have : i ≠ k := by omega
    simp only [tdel, this, if_false]
    rw [ih (k + 1) i h.2 (by omega)]

theorem twfFrom_tmap (d : α) (f : Nat → α → α) (t : Tbl α) : ∀ lo, twfFrom d lo t = true → twfFrom d lo (tmap d f t) = true := by
  induction t with
  | nil => intro _ h; exact h
  | cons p t ih =>
    obtain ⟨k, v⟩ := p
    intro lo h
    simp only [twfFrom, Bool.and_eq_true, decide_eq_true_eq] at h
    simp only [tmap]
    split
    · exact twfFrom_mono d _ (k + 1) lo (twfFrom_tdel d _ k _ (ih (k + 1) h.2)) (by omega)
    · simp only [twfFrom, Bool.and_eq_true, decide_eq_true_eq]
      exact ⟨⟨h.1.1, ‹_›⟩, ih (k + 1) h.2⟩

/-- A change of every entry keeps the canonical form. -/
theorem twf_tmap (d : α) (f : Nat → α → α) (t : Tbl α) (h : twf d t = true) : twf d (tmap d f t) = true :=
  twfFrom_tmap d f t 0 h

/-- A read of a table changed entry by entry by an f that keeps the default. -/
theorem tget_tmap (d : α) (f : Nat → α → α) (hf : ∀ i, f i d = d) (t : Tbl α) (i : Nat) :
    tget d (tmap d f t) i = f i (tget d t i) := by
  induction t with
  | nil => exact (hf i).symm
  | cons p t ih =>
    obtain ⟨k, v⟩ := p
    by_cases hi : i = k
    · subst hi
      simp only [tmap, tget, if_true]
      split
      · rw [tget_tdel_same]
        exact (‹f i v = d›).symm
      · simp [tget]
    · simp only [tmap, tget, hi, if_false]
      split
      · rw [tget_tdel_other d _ k i hi]
        exact ih
      · simpa [tget, hi] using ih

theorem twfFrom_tfilter (d : α) (p : Nat → Bool) (t : Tbl α) : ∀ lo, twfFrom d lo t = true → twfFrom d lo (tfilter p t) = true := by
  induction t with
  | nil => intro _ h; exact h
  | cons e t ih =>
    obtain ⟨k, v⟩ := e
    intro lo h
    simp only [twfFrom, Bool.and_eq_true, decide_eq_true_eq] at h
    by_cases hp : p k
    · simp only [tfilter, List.filter, hp, twfFrom, Bool.and_eq_true, decide_eq_true_eq]
      exact ⟨h.1, ih (k + 1) h.2⟩
    · simp only [tfilter, List.filter, hp]
      exact twfFrom_mono d _ (k + 1) lo (ih (k + 1) h.2) (by omega)

/-- Keeping some keys keeps the canonical form. -/
theorem twf_tfilter (d : α) (p : Nat → Bool) (t : Tbl α) (h : twf d t = true) : twf d (tfilter p t) = true :=
  twfFrom_tfilter d p t 0 h

/-- Keeping some keys leaves those as they were and the others at the default. -/
theorem tget_tfilter (d : α) (p : Nat → Bool) (t : Tbl α) (i : Nat) : tget d (tfilter p t) i = if p i then tget d t i else d := by
  induction t with
  | nil => simp [tfilter, tget]
  | cons e t ih =>
    obtain ⟨k, v⟩ := e
    simp only [tfilter] at ih
    by_cases hp : p k <;> by_cases hi : i = k
    · subst hi
      simp [tfilter, List.filter, hp, tget]
    · simp [tfilter, List.filter, hp, tget, hi, ih]
    · subst hi
      simp [tfilter, List.filter, hp, ih]
    · simp [tfilter, List.filter, hp, tget, hi, ih]

end Sys2Proof.Machine
end

