-- ==== Sys2Proof/Laws/Memory.lean ====
section
/-! SUPPORT. Every operation on a bank's words, on an engine's memories and on the tables that hold them keeps the canonical
form, and State.reset has it (log entry 3). -/

namespace Sys2Proof.Machine
open Sys2Proof

theorem bankWf_iff (b : Bank) : bankWf b = true ↔ twf zeroWord b.words = true ∧ twf false b.valid = true ∧ twf zeroWord b.spare = true ∧
    twf 0 b.remap = true ∧ twf zeroWord b.buf = true ∧ twf false b.inBuf = true := by
  simp [bankWf, and_assoc]

/-- A fold of steps that each keep a property keeps it. -/
theorem foldl_keeps {α β : Type} (P : β → Prop) (f : β → α → β) (hf : ∀ b a, P b → P (f b a)) (l : List α) (b : β) (h : P b) : P (l.foldl f b) := by
  induction l generalizing b with
  | nil => exact h
  | cons a l ih => exact ih _ (hf b a h)

theorem arrayPut_wf (b : Bank) (a : Nat) (w : PWord) (h : bankWf b = true) : bankWf (arrayPut b a w) = true := by
  rw [bankWf_iff] at *
  unfold arrayPut
  split
  · exact ⟨twf_tset _ _ _ _ h.1, h.2⟩
  · refine ⟨h.1, h.2.1, ?_, h.2.2.2⟩
    exact foldl_keeps (fun (t : Tbl PWord) => twf zeroWord t = true) (fun t k => tset zeroWord t k w) (fun t k ht => twf_tset _ _ _ _ ht) _ _ h.2.2.1

theorem rawPut_wf (b : Bank) (a : Nat) (w : PWord) (h : bankWf b = true) : bankWf (rawPut b a w) = true := by
  rw [bankWf_iff] at *
  unfold rawPut
  split
  · dsimp only
    exact ⟨h.1, h.2.1, h.2.2.1, h.2.2.2.1, twf_tset _ _ _ _ h.2.2.2.2.1, twf_tset _ _ _ _ h.2.2.2.2.2⟩
  · exact (bankWf_iff _).1 (arrayPut_wf b a w ((bankWf_iff b).2 h))

theorem makeValid_wf (b : Bank) (a : Nat) (h : bankWf b = true) : bankWf (makeValid b a) = true := by
  unfold makeValid
  split
  · exact h
  · have := foldl_keeps (fun c => bankWf c = true) (fun c i => rawPut c (8 * (a / 8) + i) zeroWord) (fun c i hc => rawPut_wf c _ _ hc)
      (List.range 8) b h
    dsimp only
    revert this
    generalize (List.range 8).foldl (fun c i => rawPut c (8 * (a / 8) + i) zeroWord) b = c
    intro this
    rw [bankWf_iff] at this ⊢
    dsimp only
    exact ⟨this.1, twf_tset _ _ _ _ ((bankWf_iff b).1 h).2.1, this.2.2⟩

/-- A store keeps a bank's memories canonical. -/
theorem bankStore_wf (b : Bank) (a : Nat) (w : PWord) (h : bankWf b = true) : bankWf (bankStore b a w) = true :=
  rawPut_wf _ a w (makeValid_wf b a h)

theorem remapFill_wf (b c : Bank) (a src : Nat) (w : PWord) (h : bankWf b = true) (e : remapFill b a src w = some c) : bankWf c = true := by
  unfold remapFill at e
  split at e
  · cases e
  · cases e
    rw [bankWf_iff] at *
    exact ⟨h.1, h.2.1, twf_tset _ _ _ _ h.2.2.1, twf_tset _ _ _ _ h.2.2.2.1, h.2.2.2.2⟩

/-- A remap copy's read changes no memory. -/
theorem copyRead_wf (b : Bank) (free a : Nat) (w : PWord) (flip : BitVec 80) (h : bankWf b = true) : bankWf (copyRead b free a w flip).2 = true := by
  unfold copyRead
  split
  · exact h
  · dsimp only
    cases eccKind free flip <;> exact h

theorem remapTo_wf (b : Bank) (k a free : Nat) (flip : BitVec 80) (h : bankWf b = true) : bankWf (remapTo b k a free flip) = true := by
  unfold remapTo
  split
  · exact h
  · have hc := copyRead_wf b free a (match remapOf b a with
      | some j => tget zeroWord b.spare j
      | none => tget zeroWord b.words a) flip h
    dsimp only
    rw [bankWf_iff] at *
    exact ⟨hc.1, hc.2.1, twf_tset _ _ _ _ h.2.2.1, twf_tset _ _ _ _ h.2.2.2.1, hc.2.2.2.2⟩

theorem remapBack_wf (b : Bank) (k free : Nat) (flip : BitVec 80) (h : bankWf b = true) : bankWf (remapBack b k free flip) = true := by
  unfold remapBack
  dsimp only
  split
  · have hc := copyRead_wf b free (fld (tget 0 b.remap k) 12 0) (tget zeroWord b.spare k) flip h
    rw [bankWf_iff] at *
    dsimp only
    exact ⟨twf_tset _ _ _ _ hc.1, hc.2.1, twf_tset _ _ _ _ h.2.2.1, twf_tset _ _ _ _ h.2.2.2.1, hc.2.2.2.2⟩
  · exact h

theorem restoreWord_wf (b : Bank) (j : Nat) (h : bankWf b = true) : bankWf (restoreWord b j) = true := by
  unfold restoreWord
  dsimp only
  split
  · refine arrayPut_wf _ _ _ ?_
    rw [bankWf_iff] at *
    dsimp only
    exact ⟨h.1, h.2.1, h.2.2.1, h.2.2.2.1, twf_tset _ _ _ _ h.2.2.2.2.1, twf_tset _ _ _ _ h.2.2.2.2.2⟩
  · exact h

/-- A bank cleared holds nothing. -/
theorem bankClear_wf (b : Bank) (h : bankWf b = true) : bankWf (bankClear b) = true := by
  rw [bankWf_iff] at *
  exact ⟨rfl, rfl, rfl, h.2.2.2.1, rfl, rfl⟩

/-- A word written to an engine's data memory keeps its memories canonical. -/
theorem dmPut_wf (x : Engine) (a : Nat) (l : Lane) (h : engWf x = true) : engWf (dmPut x a l) = true := by
  simp only [engWf, Bool.and_eq_true] at *
  exact ⟨twf_tset _ _ _ _ h.1, h.2⟩

theorem dmPutAll_wf (x : Engine) (a : Nat) (ws : List Lane) (h : engWf x = true) : engWf (dmPutAll x a ws) = true :=
  foldl_keeps (fun y => engWf y = true) _ (fun y _ hy => dmPut_wf y _ _ hy) _ x h

/-- The values of a table after a write are the one written and some there before. -/
theorem mem_tdel {α : Type} (t : Tbl α) (i : Nat) (p : Nat × α) (h : p ∈ tdel t i) : p ∈ t := by
  induction t with
  | nil => exact h
  | cons e t ih =>
    obtain ⟨k, v⟩ := e
    simp only [tdel] at h
    split at h
    · exact List.mem_cons_of_mem _ (ih h)
    · cases List.mem_cons.1 h with
      | inl h => exact h ▸ List.mem_cons_self
      | inr h => exact List.mem_cons_of_mem _ (ih h)

theorem mem_tput {α : Type} (t : Tbl α) (i : Nat) (x : α) (p : Nat × α) (h : p ∈ tput t i x) : p.2 = x ∨ p ∈ t := by
  induction t with
  | nil =>
    simp only [tput, List.mem_singleton] at h
    exact .inl (h ▸ rfl)
  | cons e t ih =>
    obtain ⟨k, v⟩ := e
    simp only [tput] at h
    split at h
    · cases List.mem_cons.1 h with
      | inl h => exact .inl (h ▸ rfl)
      | inr h => exact .inr h
    · split at h
      · cases List.mem_cons.1 h with
        | inl h => exact .inl (h ▸ rfl)
        | inr h => exact .inr (List.mem_cons_of_mem _ h)
      · cases List.mem_cons.1 h with
        | inl h => exact .inr (h ▸ List.mem_cons_self)
        | inr h =>
          cases ih h with
          | inl h => exact .inl h
          | inr h => exact .inr (List.mem_cons_of_mem _ h)

theorem all_tset {α : Type} [DecidableEq α] (P : α → Bool) (d : α) (t : Tbl α) (i : Nat) (x : α) (hx : P x = true)
    (h : t.all (fun p => P p.2) = true) : (tset d t i x).all (fun p => P p.2) = true := by
  rw [List.all_eq_true] at *
  intro p hp
  unfold tset at hp
  split at hp
  · exact h p (mem_tdel t i p hp)
  · cases mem_tput t i x p hp with
    | inl e => exact e ▸ hx
    | inr e => exact h p e

/-- A bank, an engine or a guard whose own memories are canonical can be put into the state. -/
theorem bankPut_wf (s : State) (n : Nat) (b : Bank) (h : memoryWf s = true) (hb : bankWf b = true) : memoryWf (bankPut s n b) = true := by
  simp only [memoryWf, Bool.and_eq_true] at *
  obtain ⟨⟨⟨⟨⟨⟨⟨⟨⟨h1, h2⟩, h3⟩, h4⟩, h5⟩, h6⟩, h7⟩, h8⟩, h9⟩, h10⟩ := h
  exact ⟨⟨⟨⟨⟨⟨⟨⟨⟨twf_tset _ _ _ _ h1, all_tset bankWf _ _ _ _ hb h2⟩, h3⟩, h4⟩, h5⟩, h6⟩, h7⟩, h8⟩, h9⟩, h10⟩

theorem engPut_wf (s : State) (e : Nat) (x : Engine) (h : memoryWf s = true) (hx : engWf x = true) : memoryWf (engPut s e x) = true := by
  simp only [memoryWf, Bool.and_eq_true] at *
  obtain ⟨⟨⟨⟨⟨⟨⟨⟨⟨h1, h2⟩, h3⟩, h4⟩, h5⟩, h6⟩, h7⟩, h8⟩, h9⟩, h10⟩ := h
  exact ⟨⟨⟨⟨⟨⟨⟨⟨⟨h1, h2⟩, twf_tset _ _ _ _ h3⟩, all_tset engWf _ _ _ _ hx h4⟩, h5⟩, h6⟩, h7⟩, h8⟩, h9⟩, h10⟩

theorem grdPut_wf (s : State) (m : Nat) (g : Guard) (h : memoryWf s = true) (hg : grdWf g = true) : memoryWf (grdPut s m g) = true := by
  simp only [memoryWf, Bool.and_eq_true] at *
  obtain ⟨⟨⟨⟨⟨⟨⟨⟨⟨h1, h2⟩, h3⟩, h4⟩, h5⟩, h6⟩, h7⟩, h8⟩, h9⟩, h10⟩ := h
  exact ⟨⟨⟨⟨⟨⟨⟨⟨⟨h1, h2⟩, h3⟩, h4⟩, twf_tset _ _ _ _ h5⟩, all_tset grdWf _ _ _ _ hg h6⟩, h7⟩, h8⟩, h9⟩, h10⟩

/-- After reset every memory is in canonical form. -/
theorem reset_memoryWf : memoryWf State.reset = true := rfl

end Sys2Proof.Machine
end

