-- ==== Sys2Proof/Laws/State.lean ====
section
/-! SUPPORT. The fields of State after each of its updates: one lemma per field per update, and what each accessor gives after
the update of its own table. -/

namespace Sys2Proof.Machine
open Sys2Proof

/-! ### engPut -/

@[simp] theorem engPut_pending (s : State) (e : Nat) (x : Engine) : (engPut s e x).pending = s.pending := rfl
@[simp] theorem engPut_now (s : State) (e : Nat) (x : Engine) : (engPut s e x).now = s.now := rfl
@[simp] theorem engPut_fresh (s : State) (e : Nat) (x : Engine) : (engPut s e x).fresh = s.fresh := rfl
@[simp] theorem engPut_cells (s : State) (e : Nat) (x : Engine) : (engPut s e x).cells = s.cells := rfl
@[simp] theorem engPut_rclks (s : State) (e : Nat) (x : Engine) : (engPut s e x).rclks = s.rclks := rfl
@[simp] theorem engPut_gov (s : State) (e : Nat) (x : Engine) : (engPut s e x).gov = s.gov := rfl
@[simp] theorem engPut_banks (s : State) (e : Nat) (x : Engine) : (engPut s e x).banks = s.banks := rfl
@[simp] theorem engPut_wraps (s : State) (e : Nat) (x : Engine) : (engPut s e x).wraps = s.wraps := rfl
@[simp] theorem engPut_routers (s : State) (e : Nat) (x : Engine) : (engPut s e x).routers = s.routers := rfl
@[simp] theorem engPut_noc (s : State) (e : Nat) (x : Engine) : (engPut s e x).noc = s.noc := rfl
@[simp] theorem engPut_ports (s : State) (e : Nat) (x : Engine) : (engPut s e x).ports = s.ports := rfl
@[simp] theorem engPut_clk (s : State) (e : Nat) (x : Engine) : (engPut s e x).clk = s.clk := rfl
@[simp] theorem engPut_pwr (s : State) (e : Nat) (x : Engine) : (engPut s e x).pwr = s.pwr := rfl
@[simp] theorem engPut_rst (s : State) (e : Nat) (x : Engine) : (engPut s e x).rst = s.rst := rfl
@[simp] theorem engPut_sec (s : State) (e : Nat) (x : Engine) : (engPut s e x).sec = s.sec := rfl
@[simp] theorem engPut_dbg (s : State) (e : Nat) (x : Engine) : (engPut s e x).dbg = s.dbg := rfl
@[simp] theorem engPut_gcfg (s : State) (e : Nat) (x : Engine) : (engPut s e x).gcfg = s.gcfg := rfl
@[simp] theorem engPut_gsel (s : State) (e : Nat) (x : Engine) : (engPut s e x).gsel = s.gsel := rfl
@[simp] theorem engPut_mcs (s : State) (e : Nat) (x : Engine) : (engPut s e x).mcs = s.mcs := rfl
@[simp] theorem engPut_guards (s : State) (e : Nat) (x : Engine) : (engPut s e x).guards = s.guards := rfl
@[simp] theorem engPut_lanes (s : State) (e : Nat) (x : Engine) : (engPut s e x).lanes = s.lanes := rfl
@[simp] theorem engPut_quads (s : State) (e : Nat) (x : Engine) : (engPut s e x).quads = s.quads := rfl
@[simp] theorem engPut_lks (s : State) (e : Nat) (x : Engine) : (engPut s e x).lks = s.lks := rfl
@[simp] theorem engPut_ld (s : State) (e : Nat) (x : Engine) : (engPut s e x).ld = s.ld := rfl
@[simp] theorem engPut_frames (s : State) (e : Nat) (x : Engine) : (engPut s e x).frames = s.frames := rfl
@[simp] theorem engPut_panels (s : State) (e : Nat) (x : Engine) : (engPut s e x).panels = s.panels := rfl
@[simp] theorem engPut_darners (s : State) (e : Nat) (x : Engine) : (engPut s e x).darners = s.darners := rfl
@[simp] theorem engPut_lg (s : State) (e : Nat) (x : Engine) : (engPut s e x).lg = s.lg := rfl
@[simp] theorem engPut_st (s : State) (e : Nat) (x : Engine) : (engPut s e x).st = s.st := rfl
@[simp] theorem engPut_svc (s : State) (e : Nat) (x : Engine) : (engPut s e x).svc = s.svc := rfl
@[simp] theorem engPut_pins (s : State) (e : Nat) (x : Engine) : (engPut s e x).pins = s.pins := rfl
@[simp] theorem eng_engPut_same (s : State) (e : Nat) (x : Engine) : eng (engPut s e x) e = x := tget_tset_same ..
theorem eng_engPut (s : State) (e : Nat) (x : Engine) (j : Nat) : eng (engPut s e x) j = if j = e then x else eng s j := tget_tset ..

/-! ### bankPut -/

@[simp] theorem bankPut_pending (s : State) (n : Nat) (b : Bank) : (bankPut s n b).pending = s.pending := rfl
@[simp] theorem bankPut_now (s : State) (n : Nat) (b : Bank) : (bankPut s n b).now = s.now := rfl
@[simp] theorem bankPut_fresh (s : State) (n : Nat) (b : Bank) : (bankPut s n b).fresh = s.fresh := rfl
@[simp] theorem bankPut_cells (s : State) (n : Nat) (b : Bank) : (bankPut s n b).cells = s.cells := rfl
@[simp] theorem bankPut_rclks (s : State) (n : Nat) (b : Bank) : (bankPut s n b).rclks = s.rclks := rfl
@[simp] theorem bankPut_gov (s : State) (n : Nat) (b : Bank) : (bankPut s n b).gov = s.gov := rfl
@[simp] theorem bankPut_engines (s : State) (n : Nat) (b : Bank) : (bankPut s n b).engines = s.engines := rfl
@[simp] theorem bankPut_wraps (s : State) (n : Nat) (b : Bank) : (bankPut s n b).wraps = s.wraps := rfl
@[simp] theorem bankPut_routers (s : State) (n : Nat) (b : Bank) : (bankPut s n b).routers = s.routers := rfl
@[simp] theorem bankPut_noc (s : State) (n : Nat) (b : Bank) : (bankPut s n b).noc = s.noc := rfl
@[simp] theorem bankPut_ports (s : State) (n : Nat) (b : Bank) : (bankPut s n b).ports = s.ports := rfl
@[simp] theorem bankPut_clk (s : State) (n : Nat) (b : Bank) : (bankPut s n b).clk = s.clk := rfl
@[simp] theorem bankPut_pwr (s : State) (n : Nat) (b : Bank) : (bankPut s n b).pwr = s.pwr := rfl
@[simp] theorem bankPut_rst (s : State) (n : Nat) (b : Bank) : (bankPut s n b).rst = s.rst := rfl
@[simp] theorem bankPut_sec (s : State) (n : Nat) (b : Bank) : (bankPut s n b).sec = s.sec := rfl
@[simp] theorem bankPut_dbg (s : State) (n : Nat) (b : Bank) : (bankPut s n b).dbg = s.dbg := rfl
@[simp] theorem bankPut_gcfg (s : State) (n : Nat) (b : Bank) : (bankPut s n b).gcfg = s.gcfg := rfl
@[simp] theorem bankPut_gsel (s : State) (n : Nat) (b : Bank) : (bankPut s n b).gsel = s.gsel := rfl
@[simp] theorem bankPut_mcs (s : State) (n : Nat) (b : Bank) : (bankPut s n b).mcs = s.mcs := rfl
@[simp] theorem bankPut_guards (s : State) (n : Nat) (b : Bank) : (bankPut s n b).guards = s.guards := rfl
@[simp] theorem bankPut_lanes (s : State) (n : Nat) (b : Bank) : (bankPut s n b).lanes = s.lanes := rfl
@[simp] theorem bankPut_quads (s : State) (n : Nat) (b : Bank) : (bankPut s n b).quads = s.quads := rfl
@[simp] theorem bankPut_lks (s : State) (n : Nat) (b : Bank) : (bankPut s n b).lks = s.lks := rfl
@[simp] theorem bankPut_ld (s : State) (n : Nat) (b : Bank) : (bankPut s n b).ld = s.ld := rfl
@[simp] theorem bankPut_frames (s : State) (n : Nat) (b : Bank) : (bankPut s n b).frames = s.frames := rfl
@[simp] theorem bankPut_panels (s : State) (n : Nat) (b : Bank) : (bankPut s n b).panels = s.panels := rfl
@[simp] theorem bankPut_darners (s : State) (n : Nat) (b : Bank) : (bankPut s n b).darners = s.darners := rfl
@[simp] theorem bankPut_lg (s : State) (n : Nat) (b : Bank) : (bankPut s n b).lg = s.lg := rfl
@[simp] theorem bankPut_st (s : State) (n : Nat) (b : Bank) : (bankPut s n b).st = s.st := rfl
@[simp] theorem bankPut_svc (s : State) (n : Nat) (b : Bank) : (bankPut s n b).svc = s.svc := rfl
@[simp] theorem bankPut_pins (s : State) (n : Nat) (b : Bank) : (bankPut s n b).pins = s.pins := rfl
@[simp] theorem bank_bankPut_same (s : State) (n : Nat) (b : Bank) : bank (bankPut s n b) n = b := tget_tset_same ..
theorem bank_bankPut (s : State) (n : Nat) (b : Bank) (j : Nat) : bank (bankPut s n b) j = if j = n then b else bank s j := tget_tset ..

/-! ### wrapPut -/

@[simp] theorem wrapPut_pending (s : State) (u : Nat) (w : Wrapper) : (wrapPut s u w).pending = s.pending := rfl
@[simp] theorem wrapPut_now (s : State) (u : Nat) (w : Wrapper) : (wrapPut s u w).now = s.now := rfl
@[simp] theorem wrapPut_fresh (s : State) (u : Nat) (w : Wrapper) : (wrapPut s u w).fresh = s.fresh := rfl
@[simp] theorem wrapPut_cells (s : State) (u : Nat) (w : Wrapper) : (wrapPut s u w).cells = s.cells := rfl
@[simp] theorem wrapPut_rclks (s : State) (u : Nat) (w : Wrapper) : (wrapPut s u w).rclks = s.rclks := rfl
@[simp] theorem wrapPut_gov (s : State) (u : Nat) (w : Wrapper) : (wrapPut s u w).gov = s.gov := rfl
@[simp] theorem wrapPut_engines (s : State) (u : Nat) (w : Wrapper) : (wrapPut s u w).engines = s.engines := rfl
@[simp] theorem wrapPut_banks (s : State) (u : Nat) (w : Wrapper) : (wrapPut s u w).banks = s.banks := rfl
@[simp] theorem wrapPut_routers (s : State) (u : Nat) (w : Wrapper) : (wrapPut s u w).routers = s.routers := rfl
@[simp] theorem wrapPut_noc (s : State) (u : Nat) (w : Wrapper) : (wrapPut s u w).noc = s.noc := rfl
@[simp] theorem wrapPut_ports (s : State) (u : Nat) (w : Wrapper) : (wrapPut s u w).ports = s.ports := rfl
@[simp] theorem wrapPut_clk (s : State) (u : Nat) (w : Wrapper) : (wrapPut s u w).clk = s.clk := rfl
@[simp] theorem wrapPut_pwr (s : State) (u : Nat) (w : Wrapper) : (wrapPut s u w).pwr = s.pwr := rfl
@[simp] theorem wrapPut_rst (s : State) (u : Nat) (w : Wrapper) : (wrapPut s u w).rst = s.rst := rfl
@[simp] theorem wrapPut_sec (s : State) (u : Nat) (w : Wrapper) : (wrapPut s u w).sec = s.sec := rfl
@[simp] theorem wrapPut_dbg (s : State) (u : Nat) (w : Wrapper) : (wrapPut s u w).dbg = s.dbg := rfl
@[simp] theorem wrapPut_gcfg (s : State) (u : Nat) (w : Wrapper) : (wrapPut s u w).gcfg = s.gcfg := rfl
@[simp] theorem wrapPut_gsel (s : State) (u : Nat) (w : Wrapper) : (wrapPut s u w).gsel = s.gsel := rfl
@[simp] theorem wrapPut_mcs (s : State) (u : Nat) (w : Wrapper) : (wrapPut s u w).mcs = s.mcs := rfl
@[simp] theorem wrapPut_guards (s : State) (u : Nat) (w : Wrapper) : (wrapPut s u w).guards = s.guards := rfl
@[simp] theorem wrapPut_lanes (s : State) (u : Nat) (w : Wrapper) : (wrapPut s u w).lanes = s.lanes := rfl
@[simp] theorem wrapPut_quads (s : State) (u : Nat) (w : Wrapper) : (wrapPut s u w).quads = s.quads := rfl
@[simp] theorem wrapPut_lks (s : State) (u : Nat) (w : Wrapper) : (wrapPut s u w).lks = s.lks := rfl
@[simp] theorem wrapPut_ld (s : State) (u : Nat) (w : Wrapper) : (wrapPut s u w).ld = s.ld := rfl
@[simp] theorem wrapPut_frames (s : State) (u : Nat) (w : Wrapper) : (wrapPut s u w).frames = s.frames := rfl
@[simp] theorem wrapPut_panels (s : State) (u : Nat) (w : Wrapper) : (wrapPut s u w).panels = s.panels := rfl
@[simp] theorem wrapPut_darners (s : State) (u : Nat) (w : Wrapper) : (wrapPut s u w).darners = s.darners := rfl
@[simp] theorem wrapPut_lg (s : State) (u : Nat) (w : Wrapper) : (wrapPut s u w).lg = s.lg := rfl
@[simp] theorem wrapPut_st (s : State) (u : Nat) (w : Wrapper) : (wrapPut s u w).st = s.st := rfl
@[simp] theorem wrapPut_svc (s : State) (u : Nat) (w : Wrapper) : (wrapPut s u w).svc = s.svc := rfl
@[simp] theorem wrapPut_pins (s : State) (u : Nat) (w : Wrapper) : (wrapPut s u w).pins = s.pins := rfl
@[simp] theorem wrapOf_wrapPut_same (s : State) (u : Nat) (w : Wrapper) : wrapOf (wrapPut s u w) u = w := tget_tset_same ..
theorem wrapOf_wrapPut (s : State) (u : Nat) (w : Wrapper) (j : Nat) : wrapOf (wrapPut s u w) j = if j = u then w else wrapOf s j := tget_tset ..

/-! ### routerPut -/

@[simp] theorem routerPut_pending (s : State) (r : Nat) (x : Router) : (routerPut s r x).pending = s.pending := rfl
@[simp] theorem routerPut_now (s : State) (r : Nat) (x : Router) : (routerPut s r x).now = s.now := rfl
@[simp] theorem routerPut_fresh (s : State) (r : Nat) (x : Router) : (routerPut s r x).fresh = s.fresh := rfl
@[simp] theorem routerPut_cells (s : State) (r : Nat) (x : Router) : (routerPut s r x).cells = s.cells := rfl
@[simp] theorem routerPut_rclks (s : State) (r : Nat) (x : Router) : (routerPut s r x).rclks = s.rclks := rfl
@[simp] theorem routerPut_gov (s : State) (r : Nat) (x : Router) : (routerPut s r x).gov = s.gov := rfl
@[simp] theorem routerPut_engines (s : State) (r : Nat) (x : Router) : (routerPut s r x).engines = s.engines := rfl
@[simp] theorem routerPut_banks (s : State) (r : Nat) (x : Router) : (routerPut s r x).banks = s.banks := rfl
@[simp] theorem routerPut_wraps (s : State) (r : Nat) (x : Router) : (routerPut s r x).wraps = s.wraps := rfl
@[simp] theorem routerPut_noc (s : State) (r : Nat) (x : Router) : (routerPut s r x).noc = s.noc := rfl
@[simp] theorem routerPut_ports (s : State) (r : Nat) (x : Router) : (routerPut s r x).ports = s.ports := rfl
@[simp] theorem routerPut_clk (s : State) (r : Nat) (x : Router) : (routerPut s r x).clk = s.clk := rfl
@[simp] theorem routerPut_pwr (s : State) (r : Nat) (x : Router) : (routerPut s r x).pwr = s.pwr := rfl
@[simp] theorem routerPut_rst (s : State) (r : Nat) (x : Router) : (routerPut s r x).rst = s.rst := rfl
@[simp] theorem routerPut_sec (s : State) (r : Nat) (x : Router) : (routerPut s r x).sec = s.sec := rfl
@[simp] theorem routerPut_dbg (s : State) (r : Nat) (x : Router) : (routerPut s r x).dbg = s.dbg := rfl
@[simp] theorem routerPut_gcfg (s : State) (r : Nat) (x : Router) : (routerPut s r x).gcfg = s.gcfg := rfl
@[simp] theorem routerPut_gsel (s : State) (r : Nat) (x : Router) : (routerPut s r x).gsel = s.gsel := rfl
@[simp] theorem routerPut_mcs (s : State) (r : Nat) (x : Router) : (routerPut s r x).mcs = s.mcs := rfl
@[simp] theorem routerPut_guards (s : State) (r : Nat) (x : Router) : (routerPut s r x).guards = s.guards := rfl
@[simp] theorem routerPut_lanes (s : State) (r : Nat) (x : Router) : (routerPut s r x).lanes = s.lanes := rfl
@[simp] theorem routerPut_quads (s : State) (r : Nat) (x : Router) : (routerPut s r x).quads = s.quads := rfl
@[simp] theorem routerPut_lks (s : State) (r : Nat) (x : Router) : (routerPut s r x).lks = s.lks := rfl
@[simp] theorem routerPut_ld (s : State) (r : Nat) (x : Router) : (routerPut s r x).ld = s.ld := rfl
@[simp] theorem routerPut_frames (s : State) (r : Nat) (x : Router) : (routerPut s r x).frames = s.frames := rfl
@[simp] theorem routerPut_panels (s : State) (r : Nat) (x : Router) : (routerPut s r x).panels = s.panels := rfl
@[simp] theorem routerPut_darners (s : State) (r : Nat) (x : Router) : (routerPut s r x).darners = s.darners := rfl
@[simp] theorem routerPut_lg (s : State) (r : Nat) (x : Router) : (routerPut s r x).lg = s.lg := rfl
@[simp] theorem routerPut_st (s : State) (r : Nat) (x : Router) : (routerPut s r x).st = s.st := rfl
@[simp] theorem routerPut_svc (s : State) (r : Nat) (x : Router) : (routerPut s r x).svc = s.svc := rfl
@[simp] theorem routerPut_pins (s : State) (r : Nat) (x : Router) : (routerPut s r x).pins = s.pins := rfl
@[simp] theorem routerOf_routerPut_same (s : State) (r : Nat) (x : Router) : routerOf (routerPut s r x) r = x := tget_tset_same ..
theorem routerOf_routerPut (s : State) (r : Nat) (x : Router) (j : Nat) : routerOf (routerPut s r x) j = if j = r then x else routerOf s j := tget_tset ..

/-! ### mcPut -/

@[simp] theorem mcPut_pending (s : State) (m : Nat) (x : Mc) : (mcPut s m x).pending = s.pending := rfl
@[simp] theorem mcPut_now (s : State) (m : Nat) (x : Mc) : (mcPut s m x).now = s.now := rfl
@[simp] theorem mcPut_fresh (s : State) (m : Nat) (x : Mc) : (mcPut s m x).fresh = s.fresh := rfl
@[simp] theorem mcPut_cells (s : State) (m : Nat) (x : Mc) : (mcPut s m x).cells = s.cells := rfl
@[simp] theorem mcPut_rclks (s : State) (m : Nat) (x : Mc) : (mcPut s m x).rclks = s.rclks := rfl
@[simp] theorem mcPut_gov (s : State) (m : Nat) (x : Mc) : (mcPut s m x).gov = s.gov := rfl
@[simp] theorem mcPut_engines (s : State) (m : Nat) (x : Mc) : (mcPut s m x).engines = s.engines := rfl
@[simp] theorem mcPut_banks (s : State) (m : Nat) (x : Mc) : (mcPut s m x).banks = s.banks := rfl
@[simp] theorem mcPut_wraps (s : State) (m : Nat) (x : Mc) : (mcPut s m x).wraps = s.wraps := rfl
@[simp] theorem mcPut_routers (s : State) (m : Nat) (x : Mc) : (mcPut s m x).routers = s.routers := rfl
@[simp] theorem mcPut_noc (s : State) (m : Nat) (x : Mc) : (mcPut s m x).noc = s.noc := rfl
@[simp] theorem mcPut_ports (s : State) (m : Nat) (x : Mc) : (mcPut s m x).ports = s.ports := rfl
@[simp] theorem mcPut_clk (s : State) (m : Nat) (x : Mc) : (mcPut s m x).clk = s.clk := rfl
@[simp] theorem mcPut_pwr (s : State) (m : Nat) (x : Mc) : (mcPut s m x).pwr = s.pwr := rfl
@[simp] theorem mcPut_rst (s : State) (m : Nat) (x : Mc) : (mcPut s m x).rst = s.rst := rfl
@[simp] theorem mcPut_sec (s : State) (m : Nat) (x : Mc) : (mcPut s m x).sec = s.sec := rfl
@[simp] theorem mcPut_dbg (s : State) (m : Nat) (x : Mc) : (mcPut s m x).dbg = s.dbg := rfl
@[simp] theorem mcPut_gcfg (s : State) (m : Nat) (x : Mc) : (mcPut s m x).gcfg = s.gcfg := rfl
@[simp] theorem mcPut_gsel (s : State) (m : Nat) (x : Mc) : (mcPut s m x).gsel = s.gsel := rfl
@[simp] theorem mcPut_guards (s : State) (m : Nat) (x : Mc) : (mcPut s m x).guards = s.guards := rfl
@[simp] theorem mcPut_lanes (s : State) (m : Nat) (x : Mc) : (mcPut s m x).lanes = s.lanes := rfl
@[simp] theorem mcPut_quads (s : State) (m : Nat) (x : Mc) : (mcPut s m x).quads = s.quads := rfl
@[simp] theorem mcPut_lks (s : State) (m : Nat) (x : Mc) : (mcPut s m x).lks = s.lks := rfl
@[simp] theorem mcPut_ld (s : State) (m : Nat) (x : Mc) : (mcPut s m x).ld = s.ld := rfl
@[simp] theorem mcPut_frames (s : State) (m : Nat) (x : Mc) : (mcPut s m x).frames = s.frames := rfl
@[simp] theorem mcPut_panels (s : State) (m : Nat) (x : Mc) : (mcPut s m x).panels = s.panels := rfl
@[simp] theorem mcPut_darners (s : State) (m : Nat) (x : Mc) : (mcPut s m x).darners = s.darners := rfl
@[simp] theorem mcPut_lg (s : State) (m : Nat) (x : Mc) : (mcPut s m x).lg = s.lg := rfl
@[simp] theorem mcPut_st (s : State) (m : Nat) (x : Mc) : (mcPut s m x).st = s.st := rfl
@[simp] theorem mcPut_svc (s : State) (m : Nat) (x : Mc) : (mcPut s m x).svc = s.svc := rfl
@[simp] theorem mcPut_pins (s : State) (m : Nat) (x : Mc) : (mcPut s m x).pins = s.pins := rfl
@[simp] theorem mcOf_mcPut_same (s : State) (m : Nat) (x : Mc) : mcOf (mcPut s m x) m = x := tget_tset_same ..
theorem mcOf_mcPut (s : State) (m : Nat) (x : Mc) (j : Nat) : mcOf (mcPut s m x) j = if j = m then x else mcOf s j := tget_tset ..

/-! ### grdPut -/

@[simp] theorem grdPut_pending (s : State) (m : Nat) (x : Guard) : (grdPut s m x).pending = s.pending := rfl
@[simp] theorem grdPut_now (s : State) (m : Nat) (x : Guard) : (grdPut s m x).now = s.now := rfl
@[simp] theorem grdPut_fresh (s : State) (m : Nat) (x : Guard) : (grdPut s m x).fresh = s.fresh := rfl
@[simp] theorem grdPut_cells (s : State) (m : Nat) (x : Guard) : (grdPut s m x).cells = s.cells := rfl
@[simp] theorem grdPut_rclks (s : State) (m : Nat) (x : Guard) : (grdPut s m x).rclks = s.rclks := rfl
@[simp] theorem grdPut_gov (s : State) (m : Nat) (x : Guard) : (grdPut s m x).gov = s.gov := rfl
@[simp] theorem grdPut_engines (s : State) (m : Nat) (x : Guard) : (grdPut s m x).engines = s.engines := rfl
@[simp] theorem grdPut_banks (s : State) (m : Nat) (x : Guard) : (grdPut s m x).banks = s.banks := rfl
@[simp] theorem grdPut_wraps (s : State) (m : Nat) (x : Guard) : (grdPut s m x).wraps = s.wraps := rfl
@[simp] theorem grdPut_routers (s : State) (m : Nat) (x : Guard) : (grdPut s m x).routers = s.routers := rfl
@[simp] theorem grdPut_noc (s : State) (m : Nat) (x : Guard) : (grdPut s m x).noc = s.noc := rfl
@[simp] theorem grdPut_ports (s : State) (m : Nat) (x : Guard) : (grdPut s m x).ports = s.ports := rfl
@[simp] theorem grdPut_clk (s : State) (m : Nat) (x : Guard) : (grdPut s m x).clk = s.clk := rfl
@[simp] theorem grdPut_pwr (s : State) (m : Nat) (x : Guard) : (grdPut s m x).pwr = s.pwr := rfl
@[simp] theorem grdPut_rst (s : State) (m : Nat) (x : Guard) : (grdPut s m x).rst = s.rst := rfl
@[simp] theorem grdPut_sec (s : State) (m : Nat) (x : Guard) : (grdPut s m x).sec = s.sec := rfl
@[simp] theorem grdPut_dbg (s : State) (m : Nat) (x : Guard) : (grdPut s m x).dbg = s.dbg := rfl
@[simp] theorem grdPut_gcfg (s : State) (m : Nat) (x : Guard) : (grdPut s m x).gcfg = s.gcfg := rfl
@[simp] theorem grdPut_gsel (s : State) (m : Nat) (x : Guard) : (grdPut s m x).gsel = s.gsel := rfl
@[simp] theorem grdPut_mcs (s : State) (m : Nat) (x : Guard) : (grdPut s m x).mcs = s.mcs := rfl
@[simp] theorem grdPut_lanes (s : State) (m : Nat) (x : Guard) : (grdPut s m x).lanes = s.lanes := rfl
@[simp] theorem grdPut_quads (s : State) (m : Nat) (x : Guard) : (grdPut s m x).quads = s.quads := rfl
@[simp] theorem grdPut_lks (s : State) (m : Nat) (x : Guard) : (grdPut s m x).lks = s.lks := rfl
@[simp] theorem grdPut_ld (s : State) (m : Nat) (x : Guard) : (grdPut s m x).ld = s.ld := rfl
@[simp] theorem grdPut_frames (s : State) (m : Nat) (x : Guard) : (grdPut s m x).frames = s.frames := rfl
@[simp] theorem grdPut_panels (s : State) (m : Nat) (x : Guard) : (grdPut s m x).panels = s.panels := rfl
@[simp] theorem grdPut_darners (s : State) (m : Nat) (x : Guard) : (grdPut s m x).darners = s.darners := rfl
@[simp] theorem grdPut_lg (s : State) (m : Nat) (x : Guard) : (grdPut s m x).lg = s.lg := rfl
@[simp] theorem grdPut_st (s : State) (m : Nat) (x : Guard) : (grdPut s m x).st = s.st := rfl
@[simp] theorem grdPut_svc (s : State) (m : Nat) (x : Guard) : (grdPut s m x).svc = s.svc := rfl
@[simp] theorem grdPut_pins (s : State) (m : Nat) (x : Guard) : (grdPut s m x).pins = s.pins := rfl
@[simp] theorem grdOf_grdPut_same (s : State) (m : Nat) (x : Guard) : grdOf (grdPut s m x) m = x := tget_tset_same ..
theorem grdOf_grdPut (s : State) (m : Nat) (x : Guard) (j : Nat) : grdOf (grdPut s m x) j = if j = m then x else grdOf s j := tget_tset ..

/-! ### domPut -/

@[simp] theorem domPut_pending (s : State) (n : Nat) (d : Dom) : (domPut s n d).pending = s.pending := rfl
@[simp] theorem domPut_now (s : State) (n : Nat) (d : Dom) : (domPut s n d).now = s.now := rfl
@[simp] theorem domPut_fresh (s : State) (n : Nat) (d : Dom) : (domPut s n d).fresh = s.fresh := rfl
@[simp] theorem domPut_cells (s : State) (n : Nat) (d : Dom) : (domPut s n d).cells = s.cells := rfl
@[simp] theorem domPut_rclks (s : State) (n : Nat) (d : Dom) : (domPut s n d).rclks = s.rclks := rfl
@[simp] theorem domPut_gov (s : State) (n : Nat) (d : Dom) : (domPut s n d).gov = s.gov := rfl
@[simp] theorem domPut_engines (s : State) (n : Nat) (d : Dom) : (domPut s n d).engines = s.engines := rfl
@[simp] theorem domPut_banks (s : State) (n : Nat) (d : Dom) : (domPut s n d).banks = s.banks := rfl
@[simp] theorem domPut_wraps (s : State) (n : Nat) (d : Dom) : (domPut s n d).wraps = s.wraps := rfl
@[simp] theorem domPut_routers (s : State) (n : Nat) (d : Dom) : (domPut s n d).routers = s.routers := rfl
@[simp] theorem domPut_noc (s : State) (n : Nat) (d : Dom) : (domPut s n d).noc = s.noc := rfl
@[simp] theorem domPut_ports (s : State) (n : Nat) (d : Dom) : (domPut s n d).ports = s.ports := rfl
@[simp] theorem domPut_clk (s : State) (n : Nat) (d : Dom) : (domPut s n d).clk = s.clk := rfl
@[simp] theorem domPut_rst (s : State) (n : Nat) (d : Dom) : (domPut s n d).rst = s.rst := rfl
@[simp] theorem domPut_sec (s : State) (n : Nat) (d : Dom) : (domPut s n d).sec = s.sec := rfl
@[simp] theorem domPut_dbg (s : State) (n : Nat) (d : Dom) : (domPut s n d).dbg = s.dbg := rfl
@[simp] theorem domPut_gcfg (s : State) (n : Nat) (d : Dom) : (domPut s n d).gcfg = s.gcfg := rfl
@[simp] theorem domPut_gsel (s : State) (n : Nat) (d : Dom) : (domPut s n d).gsel = s.gsel := rfl
@[simp] theorem domPut_mcs (s : State) (n : Nat) (d : Dom) : (domPut s n d).mcs = s.mcs := rfl
@[simp] theorem domPut_guards (s : State) (n : Nat) (d : Dom) : (domPut s n d).guards = s.guards := rfl
@[simp] theorem domPut_lanes (s : State) (n : Nat) (d : Dom) : (domPut s n d).lanes = s.lanes := rfl
@[simp] theorem domPut_quads (s : State) (n : Nat) (d : Dom) : (domPut s n d).quads = s.quads := rfl
@[simp] theorem domPut_lks (s : State) (n : Nat) (d : Dom) : (domPut s n d).lks = s.lks := rfl
@[simp] theorem domPut_ld (s : State) (n : Nat) (d : Dom) : (domPut s n d).ld = s.ld := rfl
@[simp] theorem domPut_frames (s : State) (n : Nat) (d : Dom) : (domPut s n d).frames = s.frames := rfl
@[simp] theorem domPut_panels (s : State) (n : Nat) (d : Dom) : (domPut s n d).panels = s.panels := rfl
@[simp] theorem domPut_darners (s : State) (n : Nat) (d : Dom) : (domPut s n d).darners = s.darners := rfl
@[simp] theorem domPut_lg (s : State) (n : Nat) (d : Dom) : (domPut s n d).lg = s.lg := rfl
@[simp] theorem domPut_st (s : State) (n : Nat) (d : Dom) : (domPut s n d).st = s.st := rfl
@[simp] theorem domPut_svc (s : State) (n : Nat) (d : Dom) : (domPut s n d).svc = s.svc := rfl
@[simp] theorem domPut_pins (s : State) (n : Nat) (d : Dom) : (domPut s n d).pins = s.pins := rfl
@[simp] theorem domOf_domPut_same (s : State) (n : Nat) (d : Dom) : domOf (domPut s n d) n = d := tget_tset_same ..
theorem domOf_domPut (s : State) (n : Nat) (d : Dom) (j : Nat) : domOf (domPut s n d) j = if j = n then d else domOf s j := tget_tset ..

/-! ### oppPut -/

@[simp] theorem oppPut_pending (s : State) (d : Nat) (x : Opp) : (oppPut s d x).pending = s.pending := rfl
@[simp] theorem oppPut_now (s : State) (d : Nat) (x : Opp) : (oppPut s d x).now = s.now := rfl
@[simp] theorem oppPut_fresh (s : State) (d : Nat) (x : Opp) : (oppPut s d x).fresh = s.fresh := rfl
@[simp] theorem oppPut_cells (s : State) (d : Nat) (x : Opp) : (oppPut s d x).cells = s.cells := rfl
@[simp] theorem oppPut_rclks (s : State) (d : Nat) (x : Opp) : (oppPut s d x).rclks = s.rclks := rfl
@[simp] theorem oppPut_gov (s : State) (d : Nat) (x : Opp) : (oppPut s d x).gov = s.gov := rfl
@[simp] theorem oppPut_engines (s : State) (d : Nat) (x : Opp) : (oppPut s d x).engines = s.engines := rfl
@[simp] theorem oppPut_banks (s : State) (d : Nat) (x : Opp) : (oppPut s d x).banks = s.banks := rfl
@[simp] theorem oppPut_wraps (s : State) (d : Nat) (x : Opp) : (oppPut s d x).wraps = s.wraps := rfl
@[simp] theorem oppPut_routers (s : State) (d : Nat) (x : Opp) : (oppPut s d x).routers = s.routers := rfl
@[simp] theorem oppPut_noc (s : State) (d : Nat) (x : Opp) : (oppPut s d x).noc = s.noc := rfl
@[simp] theorem oppPut_ports (s : State) (d : Nat) (x : Opp) : (oppPut s d x).ports = s.ports := rfl
@[simp] theorem oppPut_clk (s : State) (d : Nat) (x : Opp) : (oppPut s d x).clk = s.clk := rfl
@[simp] theorem oppPut_rst (s : State) (d : Nat) (x : Opp) : (oppPut s d x).rst = s.rst := rfl
@[simp] theorem oppPut_sec (s : State) (d : Nat) (x : Opp) : (oppPut s d x).sec = s.sec := rfl
@[simp] theorem oppPut_dbg (s : State) (d : Nat) (x : Opp) : (oppPut s d x).dbg = s.dbg := rfl
@[simp] theorem oppPut_gcfg (s : State) (d : Nat) (x : Opp) : (oppPut s d x).gcfg = s.gcfg := rfl
@[simp] theorem oppPut_gsel (s : State) (d : Nat) (x : Opp) : (oppPut s d x).gsel = s.gsel := rfl
@[simp] theorem oppPut_mcs (s : State) (d : Nat) (x : Opp) : (oppPut s d x).mcs = s.mcs := rfl
@[simp] theorem oppPut_guards (s : State) (d : Nat) (x : Opp) : (oppPut s d x).guards = s.guards := rfl
@[simp] theorem oppPut_lanes (s : State) (d : Nat) (x : Opp) : (oppPut s d x).lanes = s.lanes := rfl
@[simp] theorem oppPut_quads (s : State) (d : Nat) (x : Opp) : (oppPut s d x).quads = s.quads := rfl
@[simp] theorem oppPut_lks (s : State) (d : Nat) (x : Opp) : (oppPut s d x).lks = s.lks := rfl
@[simp] theorem oppPut_ld (s : State) (d : Nat) (x : Opp) : (oppPut s d x).ld = s.ld := rfl
@[simp] theorem oppPut_frames (s : State) (d : Nat) (x : Opp) : (oppPut s d x).frames = s.frames := rfl
@[simp] theorem oppPut_panels (s : State) (d : Nat) (x : Opp) : (oppPut s d x).panels = s.panels := rfl
@[simp] theorem oppPut_darners (s : State) (d : Nat) (x : Opp) : (oppPut s d x).darners = s.darners := rfl
@[simp] theorem oppPut_lg (s : State) (d : Nat) (x : Opp) : (oppPut s d x).lg = s.lg := rfl
@[simp] theorem oppPut_st (s : State) (d : Nat) (x : Opp) : (oppPut s d x).st = s.st := rfl
@[simp] theorem oppPut_svc (s : State) (d : Nat) (x : Opp) : (oppPut s d x).svc = s.svc := rfl
@[simp] theorem oppPut_pins (s : State) (d : Nat) (x : Opp) : (oppPut s d x).pins = s.pins := rfl
@[simp] theorem oppOf_oppPut_same (s : State) (d : Nat) (x : Opp) : oppOf (oppPut s d x) d = x := tget_tset_same ..
theorem oppOf_oppPut (s : State) (d : Nat) (x : Opp) (j : Nat) : oppOf (oppPut s d x) j = if j = d then x else oppOf s j := tget_tset ..

/-! ### pllPut -/

@[simp] theorem pllPut_pending (s : State) (i : Nat) (x : Pll) : (pllPut s i x).pending = s.pending := rfl
@[simp] theorem pllPut_now (s : State) (i : Nat) (x : Pll) : (pllPut s i x).now = s.now := rfl
@[simp] theorem pllPut_fresh (s : State) (i : Nat) (x : Pll) : (pllPut s i x).fresh = s.fresh := rfl
@[simp] theorem pllPut_cells (s : State) (i : Nat) (x : Pll) : (pllPut s i x).cells = s.cells := rfl
@[simp] theorem pllPut_rclks (s : State) (i : Nat) (x : Pll) : (pllPut s i x).rclks = s.rclks := rfl
@[simp] theorem pllPut_gov (s : State) (i : Nat) (x : Pll) : (pllPut s i x).gov = s.gov := rfl
@[simp] theorem pllPut_engines (s : State) (i : Nat) (x : Pll) : (pllPut s i x).engines = s.engines := rfl
@[simp] theorem pllPut_banks (s : State) (i : Nat) (x : Pll) : (pllPut s i x).banks = s.banks := rfl
@[simp] theorem pllPut_wraps (s : State) (i : Nat) (x : Pll) : (pllPut s i x).wraps = s.wraps := rfl
@[simp] theorem pllPut_routers (s : State) (i : Nat) (x : Pll) : (pllPut s i x).routers = s.routers := rfl
@[simp] theorem pllPut_noc (s : State) (i : Nat) (x : Pll) : (pllPut s i x).noc = s.noc := rfl
@[simp] theorem pllPut_ports (s : State) (i : Nat) (x : Pll) : (pllPut s i x).ports = s.ports := rfl
@[simp] theorem pllPut_pwr (s : State) (i : Nat) (x : Pll) : (pllPut s i x).pwr = s.pwr := rfl
@[simp] theorem pllPut_rst (s : State) (i : Nat) (x : Pll) : (pllPut s i x).rst = s.rst := rfl
@[simp] theorem pllPut_sec (s : State) (i : Nat) (x : Pll) : (pllPut s i x).sec = s.sec := rfl
@[simp] theorem pllPut_dbg (s : State) (i : Nat) (x : Pll) : (pllPut s i x).dbg = s.dbg := rfl
@[simp] theorem pllPut_gcfg (s : State) (i : Nat) (x : Pll) : (pllPut s i x).gcfg = s.gcfg := rfl
@[simp] theorem pllPut_gsel (s : State) (i : Nat) (x : Pll) : (pllPut s i x).gsel = s.gsel := rfl
@[simp] theorem pllPut_mcs (s : State) (i : Nat) (x : Pll) : (pllPut s i x).mcs = s.mcs := rfl
@[simp] theorem pllPut_guards (s : State) (i : Nat) (x : Pll) : (pllPut s i x).guards = s.guards := rfl
@[simp] theorem pllPut_lanes (s : State) (i : Nat) (x : Pll) : (pllPut s i x).lanes = s.lanes := rfl
@[simp] theorem pllPut_quads (s : State) (i : Nat) (x : Pll) : (pllPut s i x).quads = s.quads := rfl
@[simp] theorem pllPut_lks (s : State) (i : Nat) (x : Pll) : (pllPut s i x).lks = s.lks := rfl
@[simp] theorem pllPut_ld (s : State) (i : Nat) (x : Pll) : (pllPut s i x).ld = s.ld := rfl
@[simp] theorem pllPut_frames (s : State) (i : Nat) (x : Pll) : (pllPut s i x).frames = s.frames := rfl
@[simp] theorem pllPut_panels (s : State) (i : Nat) (x : Pll) : (pllPut s i x).panels = s.panels := rfl
@[simp] theorem pllPut_darners (s : State) (i : Nat) (x : Pll) : (pllPut s i x).darners = s.darners := rfl
@[simp] theorem pllPut_lg (s : State) (i : Nat) (x : Pll) : (pllPut s i x).lg = s.lg := rfl
@[simp] theorem pllPut_st (s : State) (i : Nat) (x : Pll) : (pllPut s i x).st = s.st := rfl
@[simp] theorem pllPut_svc (s : State) (i : Nat) (x : Pll) : (pllPut s i x).svc = s.svc := rfl
@[simp] theorem pllPut_pins (s : State) (i : Nat) (x : Pll) : (pllPut s i x).pins = s.pins := rfl
@[simp] theorem pllOf_pllPut_same (s : State) (i : Nat) (x : Pll) : pllOf (pllPut s i x) i = x := tget_tset_same ..
theorem pllOf_pllPut (s : State) (i : Nat) (x : Pll) (j : Nat) : pllOf (pllPut s i x) j = if j = i then x else pllOf s j := tget_tset ..

/-! ### panelPut -/

@[simp] theorem panelPut_pending (s : State) (p : Nat) (x : Panel) : (panelPut s p x).pending = s.pending := rfl
@[simp] theorem panelPut_now (s : State) (p : Nat) (x : Panel) : (panelPut s p x).now = s.now := rfl
@[simp] theorem panelPut_fresh (s : State) (p : Nat) (x : Panel) : (panelPut s p x).fresh = s.fresh := rfl
@[simp] theorem panelPut_cells (s : State) (p : Nat) (x : Panel) : (panelPut s p x).cells = s.cells := rfl
@[simp] theorem panelPut_rclks (s : State) (p : Nat) (x : Panel) : (panelPut s p x).rclks = s.rclks := rfl
@[simp] theorem panelPut_gov (s : State) (p : Nat) (x : Panel) : (panelPut s p x).gov = s.gov := rfl
@[simp] theorem panelPut_engines (s : State) (p : Nat) (x : Panel) : (panelPut s p x).engines = s.engines := rfl
@[simp] theorem panelPut_banks (s : State) (p : Nat) (x : Panel) : (panelPut s p x).banks = s.banks := rfl
@[simp] theorem panelPut_wraps (s : State) (p : Nat) (x : Panel) : (panelPut s p x).wraps = s.wraps := rfl
@[simp] theorem panelPut_routers (s : State) (p : Nat) (x : Panel) : (panelPut s p x).routers = s.routers := rfl
@[simp] theorem panelPut_noc (s : State) (p : Nat) (x : Panel) : (panelPut s p x).noc = s.noc := rfl
@[simp] theorem panelPut_ports (s : State) (p : Nat) (x : Panel) : (panelPut s p x).ports = s.ports := rfl
@[simp] theorem panelPut_clk (s : State) (p : Nat) (x : Panel) : (panelPut s p x).clk = s.clk := rfl
@[simp] theorem panelPut_pwr (s : State) (p : Nat) (x : Panel) : (panelPut s p x).pwr = s.pwr := rfl
@[simp] theorem panelPut_rst (s : State) (p : Nat) (x : Panel) : (panelPut s p x).rst = s.rst := rfl
@[simp] theorem panelPut_sec (s : State) (p : Nat) (x : Panel) : (panelPut s p x).sec = s.sec := rfl
@[simp] theorem panelPut_dbg (s : State) (p : Nat) (x : Panel) : (panelPut s p x).dbg = s.dbg := rfl
@[simp] theorem panelPut_gcfg (s : State) (p : Nat) (x : Panel) : (panelPut s p x).gcfg = s.gcfg := rfl
@[simp] theorem panelPut_gsel (s : State) (p : Nat) (x : Panel) : (panelPut s p x).gsel = s.gsel := rfl
@[simp] theorem panelPut_mcs (s : State) (p : Nat) (x : Panel) : (panelPut s p x).mcs = s.mcs := rfl
@[simp] theorem panelPut_guards (s : State) (p : Nat) (x : Panel) : (panelPut s p x).guards = s.guards := rfl
@[simp] theorem panelPut_lanes (s : State) (p : Nat) (x : Panel) : (panelPut s p x).lanes = s.lanes := rfl
@[simp] theorem panelPut_quads (s : State) (p : Nat) (x : Panel) : (panelPut s p x).quads = s.quads := rfl
@[simp] theorem panelPut_lks (s : State) (p : Nat) (x : Panel) : (panelPut s p x).lks = s.lks := rfl
@[simp] theorem panelPut_ld (s : State) (p : Nat) (x : Panel) : (panelPut s p x).ld = s.ld := rfl
@[simp] theorem panelPut_frames (s : State) (p : Nat) (x : Panel) : (panelPut s p x).frames = s.frames := rfl
@[simp] theorem panelPut_darners (s : State) (p : Nat) (x : Panel) : (panelPut s p x).darners = s.darners := rfl
@[simp] theorem panelPut_lg (s : State) (p : Nat) (x : Panel) : (panelPut s p x).lg = s.lg := rfl
@[simp] theorem panelPut_st (s : State) (p : Nat) (x : Panel) : (panelPut s p x).st = s.st := rfl
@[simp] theorem panelPut_svc (s : State) (p : Nat) (x : Panel) : (panelPut s p x).svc = s.svc := rfl
@[simp] theorem panelPut_pins (s : State) (p : Nat) (x : Panel) : (panelPut s p x).pins = s.pins := rfl
@[simp] theorem panelOf_panelPut_same (s : State) (p : Nat) (x : Panel) : panelOf (panelPut s p x) p = x := tget_tset_same ..
theorem panelOf_panelPut (s : State) (p : Nat) (x : Panel) (j : Nat) : panelOf (panelPut s p x) j = if j = p then x else panelOf s j := tget_tset ..

/-! ### lanePut -/

@[simp] theorem lanePut_pending (s : State) (l : Nat) (x : LaneReg) : (lanePut s l x).pending = s.pending := rfl
@[simp] theorem lanePut_now (s : State) (l : Nat) (x : LaneReg) : (lanePut s l x).now = s.now := rfl
@[simp] theorem lanePut_fresh (s : State) (l : Nat) (x : LaneReg) : (lanePut s l x).fresh = s.fresh := rfl
@[simp] theorem lanePut_cells (s : State) (l : Nat) (x : LaneReg) : (lanePut s l x).cells = s.cells := rfl
@[simp] theorem lanePut_rclks (s : State) (l : Nat) (x : LaneReg) : (lanePut s l x).rclks = s.rclks := rfl
@[simp] theorem lanePut_gov (s : State) (l : Nat) (x : LaneReg) : (lanePut s l x).gov = s.gov := rfl
@[simp] theorem lanePut_engines (s : State) (l : Nat) (x : LaneReg) : (lanePut s l x).engines = s.engines := rfl
@[simp] theorem lanePut_banks (s : State) (l : Nat) (x : LaneReg) : (lanePut s l x).banks = s.banks := rfl
@[simp] theorem lanePut_wraps (s : State) (l : Nat) (x : LaneReg) : (lanePut s l x).wraps = s.wraps := rfl
@[simp] theorem lanePut_routers (s : State) (l : Nat) (x : LaneReg) : (lanePut s l x).routers = s.routers := rfl
@[simp] theorem lanePut_noc (s : State) (l : Nat) (x : LaneReg) : (lanePut s l x).noc = s.noc := rfl
@[simp] theorem lanePut_ports (s : State) (l : Nat) (x : LaneReg) : (lanePut s l x).ports = s.ports := rfl
@[simp] theorem lanePut_clk (s : State) (l : Nat) (x : LaneReg) : (lanePut s l x).clk = s.clk := rfl
@[simp] theorem lanePut_pwr (s : State) (l : Nat) (x : LaneReg) : (lanePut s l x).pwr = s.pwr := rfl
@[simp] theorem lanePut_rst (s : State) (l : Nat) (x : LaneReg) : (lanePut s l x).rst = s.rst := rfl
@[simp] theorem lanePut_sec (s : State) (l : Nat) (x : LaneReg) : (lanePut s l x).sec = s.sec := rfl
@[simp] theorem lanePut_dbg (s : State) (l : Nat) (x : LaneReg) : (lanePut s l x).dbg = s.dbg := rfl
@[simp] theorem lanePut_gcfg (s : State) (l : Nat) (x : LaneReg) : (lanePut s l x).gcfg = s.gcfg := rfl
@[simp] theorem lanePut_gsel (s : State) (l : Nat) (x : LaneReg) : (lanePut s l x).gsel = s.gsel := rfl
@[simp] theorem lanePut_mcs (s : State) (l : Nat) (x : LaneReg) : (lanePut s l x).mcs = s.mcs := rfl
@[simp] theorem lanePut_guards (s : State) (l : Nat) (x : LaneReg) : (lanePut s l x).guards = s.guards := rfl
@[simp] theorem lanePut_quads (s : State) (l : Nat) (x : LaneReg) : (lanePut s l x).quads = s.quads := rfl
@[simp] theorem lanePut_lks (s : State) (l : Nat) (x : LaneReg) : (lanePut s l x).lks = s.lks := rfl
@[simp] theorem lanePut_ld (s : State) (l : Nat) (x : LaneReg) : (lanePut s l x).ld = s.ld := rfl
@[simp] theorem lanePut_frames (s : State) (l : Nat) (x : LaneReg) : (lanePut s l x).frames = s.frames := rfl
@[simp] theorem lanePut_panels (s : State) (l : Nat) (x : LaneReg) : (lanePut s l x).panels = s.panels := rfl
@[simp] theorem lanePut_darners (s : State) (l : Nat) (x : LaneReg) : (lanePut s l x).darners = s.darners := rfl
@[simp] theorem lanePut_lg (s : State) (l : Nat) (x : LaneReg) : (lanePut s l x).lg = s.lg := rfl
@[simp] theorem lanePut_st (s : State) (l : Nat) (x : LaneReg) : (lanePut s l x).st = s.st := rfl
@[simp] theorem lanePut_svc (s : State) (l : Nat) (x : LaneReg) : (lanePut s l x).svc = s.svc := rfl
@[simp] theorem lanePut_pins (s : State) (l : Nat) (x : LaneReg) : (lanePut s l x).pins = s.pins := rfl
@[simp] theorem laneOf_lanePut_same (s : State) (l : Nat) (x : LaneReg) : laneOf (lanePut s l x) l = x := tget_tset_same ..
theorem laneOf_lanePut (s : State) (l : Nat) (x : LaneReg) (j : Nat) : laneOf (lanePut s l x) j = if j = l then x else laneOf s j := tget_tset ..

/-! ### quadPut -/

@[simp] theorem quadPut_pending (s : State) (q : Nat) (x : Quad) : (quadPut s q x).pending = s.pending := rfl
@[simp] theorem quadPut_now (s : State) (q : Nat) (x : Quad) : (quadPut s q x).now = s.now := rfl
@[simp] theorem quadPut_fresh (s : State) (q : Nat) (x : Quad) : (quadPut s q x).fresh = s.fresh := rfl
@[simp] theorem quadPut_cells (s : State) (q : Nat) (x : Quad) : (quadPut s q x).cells = s.cells := rfl
@[simp] theorem quadPut_rclks (s : State) (q : Nat) (x : Quad) : (quadPut s q x).rclks = s.rclks := rfl
@[simp] theorem quadPut_gov (s : State) (q : Nat) (x : Quad) : (quadPut s q x).gov = s.gov := rfl
@[simp] theorem quadPut_engines (s : State) (q : Nat) (x : Quad) : (quadPut s q x).engines = s.engines := rfl
@[simp] theorem quadPut_banks (s : State) (q : Nat) (x : Quad) : (quadPut s q x).banks = s.banks := rfl
@[simp] theorem quadPut_wraps (s : State) (q : Nat) (x : Quad) : (quadPut s q x).wraps = s.wraps := rfl
@[simp] theorem quadPut_routers (s : State) (q : Nat) (x : Quad) : (quadPut s q x).routers = s.routers := rfl
@[simp] theorem quadPut_noc (s : State) (q : Nat) (x : Quad) : (quadPut s q x).noc = s.noc := rfl
@[simp] theorem quadPut_ports (s : State) (q : Nat) (x : Quad) : (quadPut s q x).ports = s.ports := rfl
@[simp] theorem quadPut_clk (s : State) (q : Nat) (x : Quad) : (quadPut s q x).clk = s.clk := rfl
@[simp] theorem quadPut_pwr (s : State) (q : Nat) (x : Quad) : (quadPut s q x).pwr = s.pwr := rfl
@[simp] theorem quadPut_rst (s : State) (q : Nat) (x : Quad) : (quadPut s q x).rst = s.rst := rfl
@[simp] theorem quadPut_sec (s : State) (q : Nat) (x : Quad) : (quadPut s q x).sec = s.sec := rfl
@[simp] theorem quadPut_dbg (s : State) (q : Nat) (x : Quad) : (quadPut s q x).dbg = s.dbg := rfl
@[simp] theorem quadPut_gcfg (s : State) (q : Nat) (x : Quad) : (quadPut s q x).gcfg = s.gcfg := rfl
@[simp] theorem quadPut_gsel (s : State) (q : Nat) (x : Quad) : (quadPut s q x).gsel = s.gsel := rfl
@[simp] theorem quadPut_mcs (s : State) (q : Nat) (x : Quad) : (quadPut s q x).mcs = s.mcs := rfl
@[simp] theorem quadPut_guards (s : State) (q : Nat) (x : Quad) : (quadPut s q x).guards = s.guards := rfl
@[simp] theorem quadPut_lanes (s : State) (q : Nat) (x : Quad) : (quadPut s q x).lanes = s.lanes := rfl
@[simp] theorem quadPut_lks (s : State) (q : Nat) (x : Quad) : (quadPut s q x).lks = s.lks := rfl
@[simp] theorem quadPut_ld (s : State) (q : Nat) (x : Quad) : (quadPut s q x).ld = s.ld := rfl
@[simp] theorem quadPut_frames (s : State) (q : Nat) (x : Quad) : (quadPut s q x).frames = s.frames := rfl
@[simp] theorem quadPut_panels (s : State) (q : Nat) (x : Quad) : (quadPut s q x).panels = s.panels := rfl
@[simp] theorem quadPut_darners (s : State) (q : Nat) (x : Quad) : (quadPut s q x).darners = s.darners := rfl
@[simp] theorem quadPut_lg (s : State) (q : Nat) (x : Quad) : (quadPut s q x).lg = s.lg := rfl
@[simp] theorem quadPut_st (s : State) (q : Nat) (x : Quad) : (quadPut s q x).st = s.st := rfl
@[simp] theorem quadPut_svc (s : State) (q : Nat) (x : Quad) : (quadPut s q x).svc = s.svc := rfl
@[simp] theorem quadPut_pins (s : State) (q : Nat) (x : Quad) : (quadPut s q x).pins = s.pins := rfl
@[simp] theorem quadOf_quadPut_same (s : State) (q : Nat) (x : Quad) : quadOf (quadPut s q x) q = x := tget_tset_same ..
theorem quadOf_quadPut (s : State) (q : Nat) (x : Quad) (j : Nat) : quadOf (quadPut s q x) j = if j = q then x else quadOf s j := tget_tset ..

/-! ### lkPut -/

@[simp] theorem lkPut_pending (s : State) (l : Nat) (x : Link) : (lkPut s l x).pending = s.pending := rfl
@[simp] theorem lkPut_now (s : State) (l : Nat) (x : Link) : (lkPut s l x).now = s.now := rfl
@[simp] theorem lkPut_fresh (s : State) (l : Nat) (x : Link) : (lkPut s l x).fresh = s.fresh := rfl
@[simp] theorem lkPut_cells (s : State) (l : Nat) (x : Link) : (lkPut s l x).cells = s.cells := rfl
@[simp] theorem lkPut_rclks (s : State) (l : Nat) (x : Link) : (lkPut s l x).rclks = s.rclks := rfl
@[simp] theorem lkPut_gov (s : State) (l : Nat) (x : Link) : (lkPut s l x).gov = s.gov := rfl
@[simp] theorem lkPut_engines (s : State) (l : Nat) (x : Link) : (lkPut s l x).engines = s.engines := rfl
@[simp] theorem lkPut_banks (s : State) (l : Nat) (x : Link) : (lkPut s l x).banks = s.banks := rfl
@[simp] theorem lkPut_wraps (s : State) (l : Nat) (x : Link) : (lkPut s l x).wraps = s.wraps := rfl
@[simp] theorem lkPut_routers (s : State) (l : Nat) (x : Link) : (lkPut s l x).routers = s.routers := rfl
@[simp] theorem lkPut_noc (s : State) (l : Nat) (x : Link) : (lkPut s l x).noc = s.noc := rfl
@[simp] theorem lkPut_ports (s : State) (l : Nat) (x : Link) : (lkPut s l x).ports = s.ports := rfl
@[simp] theorem lkPut_clk (s : State) (l : Nat) (x : Link) : (lkPut s l x).clk = s.clk := rfl
@[simp] theorem lkPut_pwr (s : State) (l : Nat) (x : Link) : (lkPut s l x).pwr = s.pwr := rfl
@[simp] theorem lkPut_rst (s : State) (l : Nat) (x : Link) : (lkPut s l x).rst = s.rst := rfl
@[simp] theorem lkPut_sec (s : State) (l : Nat) (x : Link) : (lkPut s l x).sec = s.sec := rfl
@[simp] theorem lkPut_dbg (s : State) (l : Nat) (x : Link) : (lkPut s l x).dbg = s.dbg := rfl
@[simp] theorem lkPut_gcfg (s : State) (l : Nat) (x : Link) : (lkPut s l x).gcfg = s.gcfg := rfl
@[simp] theorem lkPut_gsel (s : State) (l : Nat) (x : Link) : (lkPut s l x).gsel = s.gsel := rfl
@[simp] theorem lkPut_mcs (s : State) (l : Nat) (x : Link) : (lkPut s l x).mcs = s.mcs := rfl
@[simp] theorem lkPut_guards (s : State) (l : Nat) (x : Link) : (lkPut s l x).guards = s.guards := rfl
@[simp] theorem lkPut_lanes (s : State) (l : Nat) (x : Link) : (lkPut s l x).lanes = s.lanes := rfl
@[simp] theorem lkPut_quads (s : State) (l : Nat) (x : Link) : (lkPut s l x).quads = s.quads := rfl
@[simp] theorem lkPut_ld (s : State) (l : Nat) (x : Link) : (lkPut s l x).ld = s.ld := rfl
@[simp] theorem lkPut_frames (s : State) (l : Nat) (x : Link) : (lkPut s l x).frames = s.frames := rfl
@[simp] theorem lkPut_panels (s : State) (l : Nat) (x : Link) : (lkPut s l x).panels = s.panels := rfl
@[simp] theorem lkPut_darners (s : State) (l : Nat) (x : Link) : (lkPut s l x).darners = s.darners := rfl
@[simp] theorem lkPut_lg (s : State) (l : Nat) (x : Link) : (lkPut s l x).lg = s.lg := rfl
@[simp] theorem lkPut_st (s : State) (l : Nat) (x : Link) : (lkPut s l x).st = s.st := rfl
@[simp] theorem lkPut_svc (s : State) (l : Nat) (x : Link) : (lkPut s l x).svc = s.svc := rfl
@[simp] theorem lkPut_pins (s : State) (l : Nat) (x : Link) : (lkPut s l x).pins = s.pins := rfl
@[simp] theorem lkOf_lkPut_same (s : State) (l : Nat) (x : Link) : lkOf (lkPut s l x) l = x := tget_tset_same ..
theorem lkOf_lkPut (s : State) (l : Nat) (x : Link) (j : Nat) : lkOf (lkPut s l x) j = if j = l then x else lkOf s j := tget_tset ..

/-! ### darnerPut -/

@[simp] theorem darnerPut_pending (s : State) (d : Nat) (x : Darner) : (darnerPut s d x).pending = s.pending := rfl
@[simp] theorem darnerPut_now (s : State) (d : Nat) (x : Darner) : (darnerPut s d x).now = s.now := rfl
@[simp] theorem darnerPut_fresh (s : State) (d : Nat) (x : Darner) : (darnerPut s d x).fresh = s.fresh := rfl
@[simp] theorem darnerPut_cells (s : State) (d : Nat) (x : Darner) : (darnerPut s d x).cells = s.cells := rfl
@[simp] theorem darnerPut_rclks (s : State) (d : Nat) (x : Darner) : (darnerPut s d x).rclks = s.rclks := rfl
@[simp] theorem darnerPut_gov (s : State) (d : Nat) (x : Darner) : (darnerPut s d x).gov = s.gov := rfl
@[simp] theorem darnerPut_engines (s : State) (d : Nat) (x : Darner) : (darnerPut s d x).engines = s.engines := rfl
@[simp] theorem darnerPut_banks (s : State) (d : Nat) (x : Darner) : (darnerPut s d x).banks = s.banks := rfl
@[simp] theorem darnerPut_wraps (s : State) (d : Nat) (x : Darner) : (darnerPut s d x).wraps = s.wraps := rfl
@[simp] theorem darnerPut_routers (s : State) (d : Nat) (x : Darner) : (darnerPut s d x).routers = s.routers := rfl
@[simp] theorem darnerPut_noc (s : State) (d : Nat) (x : Darner) : (darnerPut s d x).noc = s.noc := rfl
@[simp] theorem darnerPut_ports (s : State) (d : Nat) (x : Darner) : (darnerPut s d x).ports = s.ports := rfl
@[simp] theorem darnerPut_clk (s : State) (d : Nat) (x : Darner) : (darnerPut s d x).clk = s.clk := rfl
@[simp] theorem darnerPut_pwr (s : State) (d : Nat) (x : Darner) : (darnerPut s d x).pwr = s.pwr := rfl
@[simp] theorem darnerPut_rst (s : State) (d : Nat) (x : Darner) : (darnerPut s d x).rst = s.rst := rfl
@[simp] theorem darnerPut_sec (s : State) (d : Nat) (x : Darner) : (darnerPut s d x).sec = s.sec := rfl
@[simp] theorem darnerPut_dbg (s : State) (d : Nat) (x : Darner) : (darnerPut s d x).dbg = s.dbg := rfl
@[simp] theorem darnerPut_gcfg (s : State) (d : Nat) (x : Darner) : (darnerPut s d x).gcfg = s.gcfg := rfl
@[simp] theorem darnerPut_gsel (s : State) (d : Nat) (x : Darner) : (darnerPut s d x).gsel = s.gsel := rfl
@[simp] theorem darnerPut_mcs (s : State) (d : Nat) (x : Darner) : (darnerPut s d x).mcs = s.mcs := rfl
@[simp] theorem darnerPut_guards (s : State) (d : Nat) (x : Darner) : (darnerPut s d x).guards = s.guards := rfl
@[simp] theorem darnerPut_lanes (s : State) (d : Nat) (x : Darner) : (darnerPut s d x).lanes = s.lanes := rfl
@[simp] theorem darnerPut_quads (s : State) (d : Nat) (x : Darner) : (darnerPut s d x).quads = s.quads := rfl
@[simp] theorem darnerPut_lks (s : State) (d : Nat) (x : Darner) : (darnerPut s d x).lks = s.lks := rfl
@[simp] theorem darnerPut_ld (s : State) (d : Nat) (x : Darner) : (darnerPut s d x).ld = s.ld := rfl
@[simp] theorem darnerPut_frames (s : State) (d : Nat) (x : Darner) : (darnerPut s d x).frames = s.frames := rfl
@[simp] theorem darnerPut_panels (s : State) (d : Nat) (x : Darner) : (darnerPut s d x).panels = s.panels := rfl
@[simp] theorem darnerPut_lg (s : State) (d : Nat) (x : Darner) : (darnerPut s d x).lg = s.lg := rfl
@[simp] theorem darnerPut_st (s : State) (d : Nat) (x : Darner) : (darnerPut s d x).st = s.st := rfl
@[simp] theorem darnerPut_svc (s : State) (d : Nat) (x : Darner) : (darnerPut s d x).svc = s.svc := rfl
@[simp] theorem darnerPut_pins (s : State) (d : Nat) (x : Darner) : (darnerPut s d x).pins = s.pins := rfl
@[simp] theorem darnerOf_darnerPut_same (s : State) (d : Nat) (x : Darner) : darnerOf (darnerPut s d x) d = x := tget_tset_same ..
theorem darnerOf_darnerPut (s : State) (d : Nat) (x : Darner) (j : Nat) : darnerOf (darnerPut s d x) j = if j = d then x else darnerOf s j := tget_tset ..

/-! ### portPut -/

@[simp] theorem portPut_pending (s : State) (k : Nat) (x : Port) : (portPut s k x).pending = s.pending := rfl
@[simp] theorem portPut_now (s : State) (k : Nat) (x : Port) : (portPut s k x).now = s.now := rfl
@[simp] theorem portPut_fresh (s : State) (k : Nat) (x : Port) : (portPut s k x).fresh = s.fresh := rfl
@[simp] theorem portPut_cells (s : State) (k : Nat) (x : Port) : (portPut s k x).cells = s.cells := rfl
@[simp] theorem portPut_rclks (s : State) (k : Nat) (x : Port) : (portPut s k x).rclks = s.rclks := rfl
@[simp] theorem portPut_gov (s : State) (k : Nat) (x : Port) : (portPut s k x).gov = s.gov := rfl
@[simp] theorem portPut_engines (s : State) (k : Nat) (x : Port) : (portPut s k x).engines = s.engines := rfl
@[simp] theorem portPut_banks (s : State) (k : Nat) (x : Port) : (portPut s k x).banks = s.banks := rfl
@[simp] theorem portPut_wraps (s : State) (k : Nat) (x : Port) : (portPut s k x).wraps = s.wraps := rfl
@[simp] theorem portPut_routers (s : State) (k : Nat) (x : Port) : (portPut s k x).routers = s.routers := rfl
@[simp] theorem portPut_noc (s : State) (k : Nat) (x : Port) : (portPut s k x).noc = s.noc := rfl
@[simp] theorem portPut_clk (s : State) (k : Nat) (x : Port) : (portPut s k x).clk = s.clk := rfl
@[simp] theorem portPut_pwr (s : State) (k : Nat) (x : Port) : (portPut s k x).pwr = s.pwr := rfl
@[simp] theorem portPut_rst (s : State) (k : Nat) (x : Port) : (portPut s k x).rst = s.rst := rfl
@[simp] theorem portPut_sec (s : State) (k : Nat) (x : Port) : (portPut s k x).sec = s.sec := rfl
@[simp] theorem portPut_dbg (s : State) (k : Nat) (x : Port) : (portPut s k x).dbg = s.dbg := rfl
@[simp] theorem portPut_gcfg (s : State) (k : Nat) (x : Port) : (portPut s k x).gcfg = s.gcfg := rfl
@[simp] theorem portPut_gsel (s : State) (k : Nat) (x : Port) : (portPut s k x).gsel = s.gsel := rfl
@[simp] theorem portPut_mcs (s : State) (k : Nat) (x : Port) : (portPut s k x).mcs = s.mcs := rfl
@[simp] theorem portPut_guards (s : State) (k : Nat) (x : Port) : (portPut s k x).guards = s.guards := rfl
@[simp] theorem portPut_lanes (s : State) (k : Nat) (x : Port) : (portPut s k x).lanes = s.lanes := rfl
@[simp] theorem portPut_quads (s : State) (k : Nat) (x : Port) : (portPut s k x).quads = s.quads := rfl
@[simp] theorem portPut_lks (s : State) (k : Nat) (x : Port) : (portPut s k x).lks = s.lks := rfl
@[simp] theorem portPut_ld (s : State) (k : Nat) (x : Port) : (portPut s k x).ld = s.ld := rfl
@[simp] theorem portPut_frames (s : State) (k : Nat) (x : Port) : (portPut s k x).frames = s.frames := rfl
@[simp] theorem portPut_panels (s : State) (k : Nat) (x : Port) : (portPut s k x).panels = s.panels := rfl
@[simp] theorem portPut_darners (s : State) (k : Nat) (x : Port) : (portPut s k x).darners = s.darners := rfl
@[simp] theorem portPut_lg (s : State) (k : Nat) (x : Port) : (portPut s k x).lg = s.lg := rfl
@[simp] theorem portPut_st (s : State) (k : Nat) (x : Port) : (portPut s k x).st = s.st := rfl
@[simp] theorem portPut_svc (s : State) (k : Nat) (x : Port) : (portPut s k x).svc = s.svc := rfl
@[simp] theorem portPut_pins (s : State) (k : Nat) (x : Port) : (portPut s k x).pins = s.pins := rfl
@[simp] theorem portOf_portPut_same (s : State) (k : Nat) (x : Port) : portOf (portPut s k x) k = x := tget_tset_same ..
theorem portOf_portPut (s : State) (k : Nat) (x : Port) (j : Nat) : portOf (portPut s k x) j = if j = k then x else portOf s j := tget_tset ..

/-! ### trcPut -/

@[simp] theorem trcPut_pending (s : State) (d : Nat) (x : Trc) : (trcPut s d x).pending = s.pending := rfl
@[simp] theorem trcPut_now (s : State) (d : Nat) (x : Trc) : (trcPut s d x).now = s.now := rfl
@[simp] theorem trcPut_fresh (s : State) (d : Nat) (x : Trc) : (trcPut s d x).fresh = s.fresh := rfl
@[simp] theorem trcPut_cells (s : State) (d : Nat) (x : Trc) : (trcPut s d x).cells = s.cells := rfl
@[simp] theorem trcPut_rclks (s : State) (d : Nat) (x : Trc) : (trcPut s d x).rclks = s.rclks := rfl
@[simp] theorem trcPut_gov (s : State) (d : Nat) (x : Trc) : (trcPut s d x).gov = s.gov := rfl
@[simp] theorem trcPut_engines (s : State) (d : Nat) (x : Trc) : (trcPut s d x).engines = s.engines := rfl
@[simp] theorem trcPut_banks (s : State) (d : Nat) (x : Trc) : (trcPut s d x).banks = s.banks := rfl
@[simp] theorem trcPut_wraps (s : State) (d : Nat) (x : Trc) : (trcPut s d x).wraps = s.wraps := rfl
@[simp] theorem trcPut_routers (s : State) (d : Nat) (x : Trc) : (trcPut s d x).routers = s.routers := rfl
@[simp] theorem trcPut_noc (s : State) (d : Nat) (x : Trc) : (trcPut s d x).noc = s.noc := rfl
@[simp] theorem trcPut_ports (s : State) (d : Nat) (x : Trc) : (trcPut s d x).ports = s.ports := rfl
@[simp] theorem trcPut_clk (s : State) (d : Nat) (x : Trc) : (trcPut s d x).clk = s.clk := rfl
@[simp] theorem trcPut_pwr (s : State) (d : Nat) (x : Trc) : (trcPut s d x).pwr = s.pwr := rfl
@[simp] theorem trcPut_rst (s : State) (d : Nat) (x : Trc) : (trcPut s d x).rst = s.rst := rfl
@[simp] theorem trcPut_sec (s : State) (d : Nat) (x : Trc) : (trcPut s d x).sec = s.sec := rfl
@[simp] theorem trcPut_gcfg (s : State) (d : Nat) (x : Trc) : (trcPut s d x).gcfg = s.gcfg := rfl
@[simp] theorem trcPut_gsel (s : State) (d : Nat) (x : Trc) : (trcPut s d x).gsel = s.gsel := rfl
@[simp] theorem trcPut_mcs (s : State) (d : Nat) (x : Trc) : (trcPut s d x).mcs = s.mcs := rfl
@[simp] theorem trcPut_guards (s : State) (d : Nat) (x : Trc) : (trcPut s d x).guards = s.guards := rfl
@[simp] theorem trcPut_lanes (s : State) (d : Nat) (x : Trc) : (trcPut s d x).lanes = s.lanes := rfl
@[simp] theorem trcPut_quads (s : State) (d : Nat) (x : Trc) : (trcPut s d x).quads = s.quads := rfl
@[simp] theorem trcPut_lks (s : State) (d : Nat) (x : Trc) : (trcPut s d x).lks = s.lks := rfl
@[simp] theorem trcPut_ld (s : State) (d : Nat) (x : Trc) : (trcPut s d x).ld = s.ld := rfl
@[simp] theorem trcPut_frames (s : State) (d : Nat) (x : Trc) : (trcPut s d x).frames = s.frames := rfl
@[simp] theorem trcPut_panels (s : State) (d : Nat) (x : Trc) : (trcPut s d x).panels = s.panels := rfl
@[simp] theorem trcPut_darners (s : State) (d : Nat) (x : Trc) : (trcPut s d x).darners = s.darners := rfl
@[simp] theorem trcPut_lg (s : State) (d : Nat) (x : Trc) : (trcPut s d x).lg = s.lg := rfl
@[simp] theorem trcPut_st (s : State) (d : Nat) (x : Trc) : (trcPut s d x).st = s.st := rfl
@[simp] theorem trcPut_svc (s : State) (d : Nat) (x : Trc) : (trcPut s d x).svc = s.svc := rfl
@[simp] theorem trcPut_pins (s : State) (d : Nat) (x : Trc) : (trcPut s d x).pins = s.pins := rfl
@[simp] theorem trcOf_trcPut_same (s : State) (d : Nat) (x : Trc) : trcOf (trcPut s d x) d = x := tget_tset_same ..
theorem trcOf_trcPut (s : State) (d : Nat) (x : Trc) (j : Nat) : trcOf (trcPut s d x) j = if j = d then x else trcOf s j := tget_tset ..

/-! ### rclkPut -/

@[simp] theorem rclkPut_pending (s : State) (r : Nat) (x : Rclk) : (rclkPut s r x).pending = s.pending := rfl
@[simp] theorem rclkPut_now (s : State) (r : Nat) (x : Rclk) : (rclkPut s r x).now = s.now := rfl
@[simp] theorem rclkPut_fresh (s : State) (r : Nat) (x : Rclk) : (rclkPut s r x).fresh = s.fresh := rfl
@[simp] theorem rclkPut_cells (s : State) (r : Nat) (x : Rclk) : (rclkPut s r x).cells = s.cells := rfl
@[simp] theorem rclkPut_gov (s : State) (r : Nat) (x : Rclk) : (rclkPut s r x).gov = s.gov := rfl
@[simp] theorem rclkPut_engines (s : State) (r : Nat) (x : Rclk) : (rclkPut s r x).engines = s.engines := rfl
@[simp] theorem rclkPut_banks (s : State) (r : Nat) (x : Rclk) : (rclkPut s r x).banks = s.banks := rfl
@[simp] theorem rclkPut_wraps (s : State) (r : Nat) (x : Rclk) : (rclkPut s r x).wraps = s.wraps := rfl
@[simp] theorem rclkPut_routers (s : State) (r : Nat) (x : Rclk) : (rclkPut s r x).routers = s.routers := rfl
@[simp] theorem rclkPut_noc (s : State) (r : Nat) (x : Rclk) : (rclkPut s r x).noc = s.noc := rfl
@[simp] theorem rclkPut_ports (s : State) (r : Nat) (x : Rclk) : (rclkPut s r x).ports = s.ports := rfl
@[simp] theorem rclkPut_clk (s : State) (r : Nat) (x : Rclk) : (rclkPut s r x).clk = s.clk := rfl
@[simp] theorem rclkPut_pwr (s : State) (r : Nat) (x : Rclk) : (rclkPut s r x).pwr = s.pwr := rfl
@[simp] theorem rclkPut_rst (s : State) (r : Nat) (x : Rclk) : (rclkPut s r x).rst = s.rst := rfl
@[simp] theorem rclkPut_sec (s : State) (r : Nat) (x : Rclk) : (rclkPut s r x).sec = s.sec := rfl
@[simp] theorem rclkPut_dbg (s : State) (r : Nat) (x : Rclk) : (rclkPut s r x).dbg = s.dbg := rfl
@[simp] theorem rclkPut_gcfg (s : State) (r : Nat) (x : Rclk) : (rclkPut s r x).gcfg = s.gcfg := rfl
@[simp] theorem rclkPut_gsel (s : State) (r : Nat) (x : Rclk) : (rclkPut s r x).gsel = s.gsel := rfl
@[simp] theorem rclkPut_mcs (s : State) (r : Nat) (x : Rclk) : (rclkPut s r x).mcs = s.mcs := rfl
@[simp] theorem rclkPut_guards (s : State) (r : Nat) (x : Rclk) : (rclkPut s r x).guards = s.guards := rfl
@[simp] theorem rclkPut_lanes (s : State) (r : Nat) (x : Rclk) : (rclkPut s r x).lanes = s.lanes := rfl
@[simp] theorem rclkPut_quads (s : State) (r : Nat) (x : Rclk) : (rclkPut s r x).quads = s.quads := rfl
@[simp] theorem rclkPut_lks (s : State) (r : Nat) (x : Rclk) : (rclkPut s r x).lks = s.lks := rfl
@[simp] theorem rclkPut_ld (s : State) (r : Nat) (x : Rclk) : (rclkPut s r x).ld = s.ld := rfl
@[simp] theorem rclkPut_frames (s : State) (r : Nat) (x : Rclk) : (rclkPut s r x).frames = s.frames := rfl
@[simp] theorem rclkPut_panels (s : State) (r : Nat) (x : Rclk) : (rclkPut s r x).panels = s.panels := rfl
@[simp] theorem rclkPut_darners (s : State) (r : Nat) (x : Rclk) : (rclkPut s r x).darners = s.darners := rfl
@[simp] theorem rclkPut_lg (s : State) (r : Nat) (x : Rclk) : (rclkPut s r x).lg = s.lg := rfl
@[simp] theorem rclkPut_st (s : State) (r : Nat) (x : Rclk) : (rclkPut s r x).st = s.st := rfl
@[simp] theorem rclkPut_svc (s : State) (r : Nat) (x : Rclk) : (rclkPut s r x).svc = s.svc := rfl
@[simp] theorem rclkPut_pins (s : State) (r : Nat) (x : Rclk) : (rclkPut s r x).pins = s.pins := rfl
@[simp] theorem rclkGet_rclkPut_same (s : State) (r : Nat) (x : Rclk) : rclkGet (rclkPut s r x) r = x := tget_tset_same ..
theorem rclkGet_rclkPut (s : State) (r : Nat) (x : Rclk) (j : Nat) : rclkGet (rclkPut s r x) j = if j = r then x else rclkGet s j := tget_tset ..

/-! ### sessPut -/

@[simp] theorem sessPut_pending (s : State) (k : Nat) (x : Sess) : (sessPut s k x).pending = s.pending := rfl
@[simp] theorem sessPut_now (s : State) (k : Nat) (x : Sess) : (sessPut s k x).now = s.now := rfl
@[simp] theorem sessPut_fresh (s : State) (k : Nat) (x : Sess) : (sessPut s k x).fresh = s.fresh := rfl
@[simp] theorem sessPut_cells (s : State) (k : Nat) (x : Sess) : (sessPut s k x).cells = s.cells := rfl
@[simp] theorem sessPut_rclks (s : State) (k : Nat) (x : Sess) : (sessPut s k x).rclks = s.rclks := rfl
@[simp] theorem sessPut_gov (s : State) (k : Nat) (x : Sess) : (sessPut s k x).gov = s.gov := rfl
@[simp] theorem sessPut_engines (s : State) (k : Nat) (x : Sess) : (sessPut s k x).engines = s.engines := rfl
@[simp] theorem sessPut_banks (s : State) (k : Nat) (x : Sess) : (sessPut s k x).banks = s.banks := rfl
@[simp] theorem sessPut_wraps (s : State) (k : Nat) (x : Sess) : (sessPut s k x).wraps = s.wraps := rfl
@[simp] theorem sessPut_routers (s : State) (k : Nat) (x : Sess) : (sessPut s k x).routers = s.routers := rfl
@[simp] theorem sessPut_noc (s : State) (k : Nat) (x : Sess) : (sessPut s k x).noc = s.noc := rfl
@[simp] theorem sessPut_ports (s : State) (k : Nat) (x : Sess) : (sessPut s k x).ports = s.ports := rfl
@[simp] theorem sessPut_clk (s : State) (k : Nat) (x : Sess) : (sessPut s k x).clk = s.clk := rfl
@[simp] theorem sessPut_pwr (s : State) (k : Nat) (x : Sess) : (sessPut s k x).pwr = s.pwr := rfl
@[simp] theorem sessPut_rst (s : State) (k : Nat) (x : Sess) : (sessPut s k x).rst = s.rst := rfl
@[simp] theorem sessPut_sec (s : State) (k : Nat) (x : Sess) : (sessPut s k x).sec = s.sec := rfl
@[simp] theorem sessPut_dbg (s : State) (k : Nat) (x : Sess) : (sessPut s k x).dbg = s.dbg := rfl
@[simp] theorem sessPut_gcfg (s : State) (k : Nat) (x : Sess) : (sessPut s k x).gcfg = s.gcfg := rfl
@[simp] theorem sessPut_gsel (s : State) (k : Nat) (x : Sess) : (sessPut s k x).gsel = s.gsel := rfl
@[simp] theorem sessPut_mcs (s : State) (k : Nat) (x : Sess) : (sessPut s k x).mcs = s.mcs := rfl
@[simp] theorem sessPut_guards (s : State) (k : Nat) (x : Sess) : (sessPut s k x).guards = s.guards := rfl
@[simp] theorem sessPut_lanes (s : State) (k : Nat) (x : Sess) : (sessPut s k x).lanes = s.lanes := rfl
@[simp] theorem sessPut_quads (s : State) (k : Nat) (x : Sess) : (sessPut s k x).quads = s.quads := rfl
@[simp] theorem sessPut_lks (s : State) (k : Nat) (x : Sess) : (sessPut s k x).lks = s.lks := rfl
@[simp] theorem sessPut_ld (s : State) (k : Nat) (x : Sess) : (sessPut s k x).ld = s.ld := rfl
@[simp] theorem sessPut_frames (s : State) (k : Nat) (x : Sess) : (sessPut s k x).frames = s.frames := rfl
@[simp] theorem sessPut_panels (s : State) (k : Nat) (x : Sess) : (sessPut s k x).panels = s.panels := rfl
@[simp] theorem sessPut_darners (s : State) (k : Nat) (x : Sess) : (sessPut s k x).darners = s.darners := rfl
@[simp] theorem sessPut_lg (s : State) (k : Nat) (x : Sess) : (sessPut s k x).lg = s.lg := rfl
@[simp] theorem sessPut_st (s : State) (k : Nat) (x : Sess) : (sessPut s k x).st = s.st := rfl
@[simp] theorem sessPut_pins (s : State) (k : Nat) (x : Sess) : (sessPut s k x).pins = s.pins := rfl
@[simp] theorem sessOf_sessPut_same (s : State) (k : Nat) (x : Sess) : sessOf (sessPut s k x) k = x := tget_tset_same ..
theorem sessOf_sessPut (s : State) (k : Nat) (x : Sess) (j : Nat) : sessOf (sessPut s k x) j = if j = k then x else sessOf s j := tget_tset ..

/-! ### bump -/

@[simp] theorem bump_pending (s : State) (n : Nat) : (bump s n).pending = s.pending := rfl
@[simp] theorem bump_now (s : State) (n : Nat) : (bump s n).now = s.now := rfl
@[simp] theorem bump_cells (s : State) (n : Nat) : (bump s n).cells = s.cells := rfl
@[simp] theorem bump_rclks (s : State) (n : Nat) : (bump s n).rclks = s.rclks := rfl
@[simp] theorem bump_gov (s : State) (n : Nat) : (bump s n).gov = s.gov := rfl
@[simp] theorem bump_engines (s : State) (n : Nat) : (bump s n).engines = s.engines := rfl
@[simp] theorem bump_banks (s : State) (n : Nat) : (bump s n).banks = s.banks := rfl
@[simp] theorem bump_wraps (s : State) (n : Nat) : (bump s n).wraps = s.wraps := rfl
@[simp] theorem bump_routers (s : State) (n : Nat) : (bump s n).routers = s.routers := rfl
@[simp] theorem bump_noc (s : State) (n : Nat) : (bump s n).noc = s.noc := rfl
@[simp] theorem bump_ports (s : State) (n : Nat) : (bump s n).ports = s.ports := rfl
@[simp] theorem bump_clk (s : State) (n : Nat) : (bump s n).clk = s.clk := rfl
@[simp] theorem bump_pwr (s : State) (n : Nat) : (bump s n).pwr = s.pwr := rfl
@[simp] theorem bump_rst (s : State) (n : Nat) : (bump s n).rst = s.rst := rfl
@[simp] theorem bump_sec (s : State) (n : Nat) : (bump s n).sec = s.sec := rfl
@[simp] theorem bump_dbg (s : State) (n : Nat) : (bump s n).dbg = s.dbg := rfl
@[simp] theorem bump_gcfg (s : State) (n : Nat) : (bump s n).gcfg = s.gcfg := rfl
@[simp] theorem bump_gsel (s : State) (n : Nat) : (bump s n).gsel = s.gsel := rfl
@[simp] theorem bump_mcs (s : State) (n : Nat) : (bump s n).mcs = s.mcs := rfl
@[simp] theorem bump_guards (s : State) (n : Nat) : (bump s n).guards = s.guards := rfl
@[simp] theorem bump_lanes (s : State) (n : Nat) : (bump s n).lanes = s.lanes := rfl
@[simp] theorem bump_quads (s : State) (n : Nat) : (bump s n).quads = s.quads := rfl
@[simp] theorem bump_lks (s : State) (n : Nat) : (bump s n).lks = s.lks := rfl
@[simp] theorem bump_ld (s : State) (n : Nat) : (bump s n).ld = s.ld := rfl
@[simp] theorem bump_frames (s : State) (n : Nat) : (bump s n).frames = s.frames := rfl
@[simp] theorem bump_panels (s : State) (n : Nat) : (bump s n).panels = s.panels := rfl
@[simp] theorem bump_darners (s : State) (n : Nat) : (bump s n).darners = s.darners := rfl
@[simp] theorem bump_lg (s : State) (n : Nat) : (bump s n).lg = s.lg := rfl
@[simp] theorem bump_st (s : State) (n : Nat) : (bump s n).st = s.st := rfl
@[simp] theorem bump_svc (s : State) (n : Nat) : (bump s n).svc = s.svc := rfl
@[simp] theorem bump_pins (s : State) (n : Nat) : (bump s n).pins = s.pins := rfl
@[simp] theorem bump_fresh (s : State) (n : Nat) : (bump s n).fresh = s.fresh + n := rfl

/-! ### respond -/

@[simp] theorem respond_pending (s : State) (rs : List Resp) : (respond s rs).pending = s.pending := rfl
@[simp] theorem respond_now (s : State) (rs : List Resp) : (respond s rs).now = s.now := rfl
@[simp] theorem respond_fresh (s : State) (rs : List Resp) : (respond s rs).fresh = s.fresh := rfl
@[simp] theorem respond_cells (s : State) (rs : List Resp) : (respond s rs).cells = s.cells := rfl
@[simp] theorem respond_rclks (s : State) (rs : List Resp) : (respond s rs).rclks = s.rclks := rfl
@[simp] theorem respond_gov (s : State) (rs : List Resp) : (respond s rs).gov = s.gov := rfl
@[simp] theorem respond_engines (s : State) (rs : List Resp) : (respond s rs).engines = s.engines := rfl
@[simp] theorem respond_banks (s : State) (rs : List Resp) : (respond s rs).banks = s.banks := rfl
@[simp] theorem respond_wraps (s : State) (rs : List Resp) : (respond s rs).wraps = s.wraps := rfl
@[simp] theorem respond_routers (s : State) (rs : List Resp) : (respond s rs).routers = s.routers := rfl
@[simp] theorem respond_ports (s : State) (rs : List Resp) : (respond s rs).ports = s.ports := rfl
@[simp] theorem respond_clk (s : State) (rs : List Resp) : (respond s rs).clk = s.clk := rfl
@[simp] theorem respond_pwr (s : State) (rs : List Resp) : (respond s rs).pwr = s.pwr := rfl
@[simp] theorem respond_rst (s : State) (rs : List Resp) : (respond s rs).rst = s.rst := rfl
@[simp] theorem respond_sec (s : State) (rs : List Resp) : (respond s rs).sec = s.sec := rfl
@[simp] theorem respond_dbg (s : State) (rs : List Resp) : (respond s rs).dbg = s.dbg := rfl
@[simp] theorem respond_gcfg (s : State) (rs : List Resp) : (respond s rs).gcfg = s.gcfg := rfl
@[simp] theorem respond_gsel (s : State) (rs : List Resp) : (respond s rs).gsel = s.gsel := rfl
@[simp] theorem respond_mcs (s : State) (rs : List Resp) : (respond s rs).mcs = s.mcs := rfl
@[simp] theorem respond_guards (s : State) (rs : List Resp) : (respond s rs).guards = s.guards := rfl
@[simp] theorem respond_lanes (s : State) (rs : List Resp) : (respond s rs).lanes = s.lanes := rfl
@[simp] theorem respond_quads (s : State) (rs : List Resp) : (respond s rs).quads = s.quads := rfl
@[simp] theorem respond_lks (s : State) (rs : List Resp) : (respond s rs).lks = s.lks := rfl
@[simp] theorem respond_ld (s : State) (rs : List Resp) : (respond s rs).ld = s.ld := rfl
@[simp] theorem respond_frames (s : State) (rs : List Resp) : (respond s rs).frames = s.frames := rfl
@[simp] theorem respond_panels (s : State) (rs : List Resp) : (respond s rs).panels = s.panels := rfl
@[simp] theorem respond_darners (s : State) (rs : List Resp) : (respond s rs).darners = s.darners := rfl
@[simp] theorem respond_lg (s : State) (rs : List Resp) : (respond s rs).lg = s.lg := rfl
@[simp] theorem respond_st (s : State) (rs : List Resp) : (respond s rs).st = s.st := rfl
@[simp] theorem respond_svc (s : State) (rs : List Resp) : (respond s rs).svc = s.svc := rfl
@[simp] theorem respond_pins (s : State) (rs : List Resp) : (respond s rs).pins = s.pins := rfl
@[simp] theorem respond_responses (s : State) (rs : List Resp) : (respond s rs).noc.responses = s.noc.responses ++ rs := rfl

/-! ### sendRaw -/

@[simp] theorem sendRaw_pending (s : State) (path init : Nat) (bytes : List Byte) : (sendRaw s path init bytes).pending = s.pending := rfl
@[simp] theorem sendRaw_now (s : State) (path init : Nat) (bytes : List Byte) : (sendRaw s path init bytes).now = s.now := rfl
@[simp] theorem sendRaw_fresh (s : State) (path init : Nat) (bytes : List Byte) : (sendRaw s path init bytes).fresh = s.fresh := rfl
@[simp] theorem sendRaw_cells (s : State) (path init : Nat) (bytes : List Byte) : (sendRaw s path init bytes).cells = s.cells := rfl
@[simp] theorem sendRaw_rclks (s : State) (path init : Nat) (bytes : List Byte) : (sendRaw s path init bytes).rclks = s.rclks := rfl
@[simp] theorem sendRaw_gov (s : State) (path init : Nat) (bytes : List Byte) : (sendRaw s path init bytes).gov = s.gov := rfl
@[simp] theorem sendRaw_engines (s : State) (path init : Nat) (bytes : List Byte) : (sendRaw s path init bytes).engines = s.engines := rfl
@[simp] theorem sendRaw_banks (s : State) (path init : Nat) (bytes : List Byte) : (sendRaw s path init bytes).banks = s.banks := rfl
@[simp] theorem sendRaw_wraps (s : State) (path init : Nat) (bytes : List Byte) : (sendRaw s path init bytes).wraps = s.wraps := rfl
@[simp] theorem sendRaw_routers (s : State) (path init : Nat) (bytes : List Byte) : (sendRaw s path init bytes).routers = s.routers := rfl
@[simp] theorem sendRaw_noc (s : State) (path init : Nat) (bytes : List Byte) : (sendRaw s path init bytes).noc = s.noc := rfl
@[simp] theorem sendRaw_ports (s : State) (path init : Nat) (bytes : List Byte) : (sendRaw s path init bytes).ports = s.ports := rfl
@[simp] theorem sendRaw_clk (s : State) (path init : Nat) (bytes : List Byte) : (sendRaw s path init bytes).clk = s.clk := rfl
@[simp] theorem sendRaw_pwr (s : State) (path init : Nat) (bytes : List Byte) : (sendRaw s path init bytes).pwr = s.pwr := rfl
@[simp] theorem sendRaw_rst (s : State) (path init : Nat) (bytes : List Byte) : (sendRaw s path init bytes).rst = s.rst := rfl
@[simp] theorem sendRaw_sec (s : State) (path init : Nat) (bytes : List Byte) : (sendRaw s path init bytes).sec = s.sec := rfl
@[simp] theorem sendRaw_dbg (s : State) (path init : Nat) (bytes : List Byte) : (sendRaw s path init bytes).dbg = s.dbg := rfl
@[simp] theorem sendRaw_gcfg (s : State) (path init : Nat) (bytes : List Byte) : (sendRaw s path init bytes).gcfg = s.gcfg := rfl
@[simp] theorem sendRaw_gsel (s : State) (path init : Nat) (bytes : List Byte) : (sendRaw s path init bytes).gsel = s.gsel := rfl
@[simp] theorem sendRaw_mcs (s : State) (path init : Nat) (bytes : List Byte) : (sendRaw s path init bytes).mcs = s.mcs := rfl
@[simp] theorem sendRaw_guards (s : State) (path init : Nat) (bytes : List Byte) : (sendRaw s path init bytes).guards = s.guards := rfl
@[simp] theorem sendRaw_lanes (s : State) (path init : Nat) (bytes : List Byte) : (sendRaw s path init bytes).lanes = s.lanes := rfl
@[simp] theorem sendRaw_quads (s : State) (path init : Nat) (bytes : List Byte) : (sendRaw s path init bytes).quads = s.quads := rfl
@[simp] theorem sendRaw_lks (s : State) (path init : Nat) (bytes : List Byte) : (sendRaw s path init bytes).lks = s.lks := rfl
@[simp] theorem sendRaw_ld (s : State) (path init : Nat) (bytes : List Byte) : (sendRaw s path init bytes).ld = s.ld := rfl
@[simp] theorem sendRaw_frames (s : State) (path init : Nat) (bytes : List Byte) : (sendRaw s path init bytes).frames = s.frames := rfl
@[simp] theorem sendRaw_panels (s : State) (path init : Nat) (bytes : List Byte) : (sendRaw s path init bytes).panels = s.panels := rfl
@[simp] theorem sendRaw_darners (s : State) (path init : Nat) (bytes : List Byte) : (sendRaw s path init bytes).darners = s.darners := rfl
@[simp] theorem sendRaw_lg (s : State) (path init : Nat) (bytes : List Byte) : (sendRaw s path init bytes).lg = s.lg := rfl
@[simp] theorem sendRaw_st (s : State) (path init : Nat) (bytes : List Byte) : (sendRaw s path init bytes).st = s.st := rfl
@[simp] theorem sendRaw_pins (s : State) (path init : Nat) (bytes : List Byte) : (sendRaw s path init bytes).pins = s.pins := rfl
@[simp] theorem sendRaw_outbox (s : State) (path init : Nat) (bytes : List Byte) :
    (sendRaw s path init bytes).svc.outbox = s.svc.outbox ++ [{ path := path, init := init, bytes := bytes }] := rfl

end Sys2Proof.Machine
end

