-- ==== Sys2Proof/Laws/Ops.lean ====
section
/-! SUPPORT. The shared operations: for each, the parts of State it can change, said once as an equation, and what the smaller
ones do. -/

namespace Sys2Proof.Machine
open Sys2Proof

/-- A fold of steps that each change only what `keep` leaves out changes only that. -/
theorem foldl_frame {α β : Type} (R : α → α → Prop) (refl : ∀ s, R s s) (trans : ∀ a b c, R a b → R b c → R a c) (f : α → β → α)
    (hf : ∀ s x, R s (f s x)) (l : List β) (s : α) : R s (l.foldl f s) := by
  induction l generalizing s with
  | nil => exact refl s
  | cons x l ih => exact trans _ _ _ (hf s x) (ih _)

/-! ### Notifications and the fault log -/

theorem notify_frame (s : State) (index sub : Nat) : notify s index sub = { s with svc := { s.svc with slots := (notify s index sub).svc.slots } } := rfl

theorem faultLog_frame (s : State) (cls unit detail : Nat) :
    faultLog s cls unit detail = { s with st := (faultLog s cls unit detail).st, svc := (faultLog s cls unit detail).svc } := by
  unfold faultLog
  dsimp only
  split <;> rfl

theorem faultLog_log (s : State) (cls unit detail : Nat) : (faultLog s cls unit detail).st.log =
    ({ us := s.now - s.st.began, cls := cls, unit := unit, detail := detail } :: s.st.log).take 64 := by
  unfold faultLog
  dsimp only
  split <;> rfl

theorem setStage_frame (s : State) (n : Nat) : setStage s n = { s with rst := (setStage s n).rst, svc := (setStage s n).svc } := by
  unfold setStage
  split <;> rfl

theorem panelSetState_frame (s : State) (p st : Nat) :
    panelSetState s p st = { s with panels := (panelSetState s p st).panels, svc := (panelSetState s p st).svc } := by
  unfold panelSetState
  dsimp only
  split
  · rfl
  · split <;> rfl

theorem withdraw_frame (s : State) (p : Word → Bool) : withdraw s p = { s with svc := { s.svc with pubs := (withdraw s p).svc.pubs } } := rfl

/-! ### Wrappers (R37 to R40) -/

/-- A request cut off can change what it addressed, and nothing else. -/
theorem cutReq_frame (s : State) (r : Req) : cutReq s r = { s with
    banks := (cutReq s r).banks, engines := (cutReq s r).engines, mcs := (cutReq s r).mcs, guards := (cutReq s r).guards
    fresh := (cutReq s r).fresh } := by
  unfold cutReq
  split
  · rfl
  · split
    · unfold cutEng
      split <;> rfl
    · split
      · rfl
      · split <;> rfl

theorem cutReq_read (s : State) (r : Req) (h : r.isRead = true) : cutReq s r = s := by
  unfold cutReq
  rw [if_pos (Or.inl h)]

theorem cutAll_frame (s : State) (rs : List Req) : cutAll s rs = { s with
    banks := (cutAll s rs).banks, engines := (cutAll s rs).engines, mcs := (cutAll s rs).mcs, guards := (cutAll s rs).guards
    fresh := (cutAll s rs).fresh } := by
  unfold cutAll
  refine foldl_frame (fun a b => b = { a with banks := b.banks, engines := b.engines, mcs := b.mcs, guards := b.guards, fresh := b.fresh })
    (fun _ => rfl) (fun _ _ _ h k => by rw [k, h]) cutReq ?_ rs s
  exact cutReq_frame

/-- Reads answered early change nothing. -/
theorem cutAll_reads (rs : List Req) (s : State) (h : ∀ r ∈ rs, r.isRead = true) : cutAll s rs = s := by
  induction rs generalizing s with
  | nil => rfl
  | cons r rs ih =>
    show cutAll (cutReq s r) rs = s
    rw [cutReq_read s r (h r (by simp)), ih s (fun x m => h x (by simp [m]))]

theorem wrapAnswer_frame (s : State) (u code : Nat) : wrapAnswer s u code = { s with
    noc := (wrapAnswer s u code).noc, banks := (wrapAnswer s u code).banks, engines := (wrapAnswer s u code).engines
    mcs := (wrapAnswer s u code).mcs, guards := (wrapAnswer s u code).guards, fresh := (wrapAnswer s u code).fresh } := by
  unfold wrapAnswer
  dsimp only
  split
  · simp only [respond, grdPut]
    rw [cutAll_frame, cutAll_frame s]
  · simp only [respond]
    rw [cutAll_frame s]

/-- A unit that has accepted nothing but reads, and is no controller: its answers go out and nothing else changes. -/
theorem wrapAnswer_reads (s : State) (u code : Nat) (hu : u < 5000 ∨ 5008 ≤ u) (h : ∀ r ∈ s.noc.accepted, r.unit = u → r.isRead = true) :
    wrapAnswer s u code = { s with noc := { s.noc with
      accepted := s.noc.accepted.filter (fun r => r.unit != u)
      responses := s.noc.responses ++ (s.noc.accepted.filter (fun r => r.unit == u)).map (fun r => r.err code) } } := by
  unfold wrapAnswer
  have hr : ∀ r ∈ s.noc.accepted.filter (fun r => r.unit == u), r.isRead = true := by
    intro r hr
    obtain ⟨hm, he⟩ := List.mem_filter.mp hr
    exact h r hm (by simpa using he)
  dsimp only
  rw [cutAll_reads _ s hr, if_neg (by omega)]
  rfl

/-- Accepted requests of other units stay, and the unit has none left. -/
theorem wrapAnswer_accepted (s : State) (u code : Nat) :
    (wrapAnswer s u code).noc.accepted = s.noc.accepted.filter (fun r => r.unit != u) := by
  unfold wrapAnswer
  dsimp only
  split
  · simp only [respond, grdPut]
    rw [cutAll_frame]
  · rfl

theorem wrapDisable_frame (s : State) (u : Nat) : wrapDisable s u = { s with wraps := (wrapDisable s u).wraps } := by
  unfold wrapDisable
  split <;> rfl

/-- A disable drains a running or waking unit and changes no other. -/
theorem wrapDisable_wraps (s : State) (u j : Nat) : wrapOf (wrapDisable s u) j = if j = u ∧ ((wrapOf s u).st = .running ∨ (wrapOf s u).st = .waking) then
    { wrapOf s u with st := .draining } else wrapOf s j := by
  cases h : (wrapOf s u).st <;> simp [wrapDisable, h, wrapOf_wrapPut]

theorem unitOff_frame (s : State) (u : Nat) : unitOff s u = { s with wraps := (unitOff s u).wraps } := by
  unfold unitOff
  split
  · rfl
  · dsimp only
    rw [wrapDisable_frame]
    rfl

/-- Stopping a fabric port's unit gives up what it has outstanding; it changes no wrapper. -/
theorem portGiveUp_wraps (s : State) (k : Nat) : (portGiveUp s k).wraps = s.wraps := by
  unfold portGiveUp
  split
  · rfl
  · split <;> rfl

theorem wrapStop_wraps (s : State) (u j : Nat) : wrapOf (wrapStop s u) j =
    if j = u then { wrapOf s u with st := if (wrapOf s u).enableAfter then .waking else .stopped, enableAfter := false } else wrapOf s j := by
  unfold wrapStop
  dsimp only
  split
  · simp only [wrapOf, portGiveUp_wraps]
    exact wrapOf_wrapPut s u _ j
  · exact wrapOf_wrapPut s u _ j

theorem wrapEnable_frame (s : State) (u : Nat) : wrapEnable s u = { s with wraps := (wrapEnable s u).wraps } := by
  unfold wrapEnable
  split <;> rfl

/-! ### Traces and cross-triggers -/

theorem traceRec_frame (s : State) (e kind src dst : Nat) : traceRec s e kind src dst = { s with dbg := (traceRec s e kind src dst).dbg } := by
  unfold traceRec
  dsimp only
  split
  · split <;> rfl
  · rfl

theorem panelXStop_frame (s : State) (p : Nat) : panelXStop s p = { s with dbg := (panelXStop s p).dbg } := rfl

theorem panelXStops_frame (l : List Nat) (s : State) : l.foldl panelXStop s = { s with dbg := (l.foldl panelXStop s).dbg } :=
  foldl_frame (fun a b => b = { a with dbg := b.dbg }) (fun _ => rfl) (fun _ _ _ h k => by rw [k, h]) panelXStop panelXStop_frame l s

theorem fireChannels_frame (s : State) (mask : Nat) : fireChannels s mask =
    { s with dbg := (fireChannels s mask).dbg, pins := (fireChannels s mask).pins, engines := (fireChannels s mask).engines } := by
  unfold fireChannels
  dsimp only
  split
  · rfl
  · rw [panelXStops_frame]
    split <;> rfl

theorem engEvents_frame (s : State) (e : Nat) (evs : List EngEv) : engEvents s e evs =
    { s with dbg := (engEvents s e evs).dbg, pins := (engEvents s e evs).pins, engines := (engEvents s e evs).engines } := by
  unfold engEvents
  refine foldl_frame (fun a b => b = { a with dbg := b.dbg, pins := b.pins, engines := b.engines }) (fun _ => rfl) (fun _ _ _ h k => by rw [k, h]) _ ?_ evs s
  intro t ev
  cases ev with
  | trace k a b =>
    dsimp only
    rw [traceRec_frame]
  | stop c =>
    dsimp only
    split
    · rfl
    · rw [fireChannels_frame]
  | expiry => rfl

theorem setGrp_frame (s : State) (e : Nat) : setGrp s e = { s with engines := (setGrp s e).engines } := by
  unfold setGrp
  refine foldl_frame (fun a b => b = { a with engines := b.engines }) (fun _ => rfl) (fun _ _ _ h k => by rw [k, h]) _ ?_ _ s
  intro t i
  dsimp only
  split
  · rfl
  · split <;> rfl

/-! ### Sessions -/

theorem sessSend_frame (s : State) (k : Nat) (msg : List Byte) : sessSend s k msg = { s with svc := (sessSend s k msg).svc } := by
  unfold sessSend
  dsimp only
  split
  · rfl
  · split <;> rfl

theorem sendAbort_frame (s : State) (k tid index sub code detail : Nat) :
    sendAbort s k tid index sub code detail = { s with svc := (sendAbort s k tid index sub code detail).svc } := sessSend_frame ..

theorem segMore_frame (n : Nat) (s : State) (k : Nat) (g : Seg) : segMore n s k g = { s with svc := (segMore n s k g).svc } := by
  induction n generalizing s g with
  | zero => rfl
  | succ n ih =>
    unfold segMore
    dsimp only
    split
    · rw [ih, sessSend_frame]
    · rfl

theorem sendOk_frame (s : State) (k tid index sub : Nat) (value : List Byte) :
    sendOk s k tid index sub value = { s with svc := (sendOk s k tid index sub value).svc } := by
  unfold sendOk
  dsimp only
  generalize (if (sessOf s k).tagged = true then 8 else 0) = n
  split
  · exact sessSend_frame ..
  · split
    · exact sendAbort_frame ..
    · rw [segMore_frame, sessSend_frame]
      rfl

theorem sessFree_frame (s : State) (k : Nat) : sessFree s k = { s with svc := (sessFree s k).svc } := rfl

theorem sessBye_frame (s : State) (k : Nat) : sessBye s k = { s with svc := (sessBye s k).svc } := by
  unfold sessBye
  dsimp only
  rw [sessFree_frame, sessSend_frame]

/-! ### Fuses -/

theorem fuseStop_frame (s : State) : fuseStop s = { s with sec := (fuseStop s).sec, fresh := (fuseStop s).fresh } := by
  unfold fuseStop
  split <;> rfl

/-- An interrupted program leaves commit bits alone and clears no fuse bit (R538, R555). -/
theorem fuseStop_fuses (s : State) (n : Nat) : (fuseStop s).sec.commit = s.sec.commit ∧ (fuseStop s).sec.blow = none ∧
    tget 0 s.sec.fuses n &&& tget 0 (fuseStop s).sec.fuses n = tget 0 s.sec.fuses n := by
  unfold fuseStop
  split
  · rename_i h
    exact ⟨rfl, h, by simp⟩
  · refine ⟨rfl, rfl, ?_⟩
    rename_i i w _
    simp only [bump, tget_tset]
    split
    · subst_vars
      ext j
      simp only [BitVec.getElem_and, BitVec.getElem_or]
      cases (tget 0 s.sec.fuses i)[j] <;> rfl
    · simp

end Sys2Proof.Machine
end

