-- ==== Sys2Proof/Laws/Repair.lean ====
section
/-! SUPPORT. The checksum of a repair record's copy and when a copy is valid (R422, R618). -/

namespace Sys2Proof.Machine
open Sys2Proof

theorem crc32cByte_lt (c : Nat) (b : Byte) (h : c < 2 ^ 32) : crc32cByte c b < 2 ^ 32 := by
  have step : ∀ x, x < 2 ^ 32 → (if x % 2 = 1 then (x / 2) ^^^ 0x82F63B78 else x / 2) < 2 ^ 32 := by
    intro x hx
    split
    · exact Nat.xor_lt_two_pow (by omega) (by decide)
    · omega
  have run : ∀ (l : List Nat) (x : Nat), x < 2 ^ 32 →
      l.foldl (fun x _ => if x % 2 = 1 then (x / 2) ^^^ 0x82F63B78 else x / 2) x < 2 ^ 32 := by
    intro l
    induction l with
    | nil => intro x hx; exact hx
    | cons _ l ih => intro x hx; exact ih _ (step x hx)
  exact run _ _ (Nat.xor_lt_two_pow h (by have := b.isLt; omega))

theorem crc32c_lt (bs : List Byte) : crc32c bs < 2 ^ 32 := by
  have run : ∀ (l : List Byte) (x : Nat), x < 2 ^ 32 → l.foldl crc32cByte x < 2 ^ 32 := by
    intro l
    induction l with
    | nil => intro x hx; exact hx
    | cons b l ih => intro x hx; exact ih _ (crc32cByte_lt x b hx)
  exact Nat.xor_lt_two_pow (run _ _ (by decide)) (by decide)

theorem fld_ofNat_low (x : Nat) (h : x < 2 ^ 32) : fld (BitVec.ofNat 64 x) 31 0 = x := by
  simp only [fld, BitVec.toNat_ofNat, Nat.shiftRight_zero]
  omega

/-- A record copy of 246 words and its CRC is valid where its header is. -/
theorem recValid_append (body : List Word) (h : body.length = 246) (hm : fld (body.headD 0) 63 48 = 0x5250)
    (hv : bitOf (body.headD 0) 31 = true) : recValid (body ++ [BitVec.ofNat 64 (recCrc body)]) = true := by
  have ht : (body ++ [BitVec.ofNat 64 (recCrc body)]).take 246 = body := by
    rw [List.take_append_of_le_length (by omega), List.take_of_length_le (by omega)]
  have hb : recCrc (body ++ [BitVec.ofNat 64 (recCrc body)]) = recCrc body := by
    have hc : ∀ ws : List Word, recCrc ws = crc32c ((ws.take 246).flatMap (fun w => leBytes 8 w.toNat)) := fun _ => rfl
    rw [hc, ht, hc body, List.take_of_length_le (by omega)]
  have hg : (body ++ [BitVec.ofNat 64 (recCrc body)]).getD 246 0 = BitVec.ofNat 64 (recCrc body) := by
    rw [List.getD_eq_getElem?_getD, List.getElem?_append_right (by omega)]
    simp [h]
  have hh : (body ++ [BitVec.ofNat 64 (recCrc body)]).headD 0 = body.headD 0 := by
    cases body with
    | nil => simp at h
    | cons _ _ => rfl
  unfold recValid
  rw [hb, hg, hh, hm, hv, fld_ofNat_low _ (by unfold recCrc; exact crc32c_lt _)]
  simp

end Sys2Proof.Machine
end

