-- ==== Sys2Proof/WellFormed.lean ====
section
/-! DEFINITION. Which commands are well formed: operands in the ranges and lengths their rules give them. A meaning is
total all the same: it treats an ill-formed operand as its own rule states, or leaves the state unchanged. -/

namespace Sys2Proof

/-- A native payload: 32 to 512 bytes, a multiple of 32 (R327). -/
def payloadOk (bytes : List Byte) : Bool :=
  decide (32 ≤ bytes.length) && decide (bytes.length ≤ 512) && bytes.length % 32 == 0

/-- A command is well formed. -/
def Instr.wf : Instr → Bool
  | .nativeFrameSend _ _ p => payloadOk p
  | .nativeFrameReceive _ f => payloadOk f.payload
  | .streamTx _ _ d _ _ => d.length == 4
  | .streamRx _ _ d _ _ => d.length == 4
  | .ctlCap _ _ _ b => b.length == 14
  | .dmaTx _ d _ _ => d.length == 2
  | .dmaRx _ d _ _ => 2 ≤ d.length && d.length % 2 == 0
  | .statsWindow _ k => decide (k < 32)
  | .statsClear _ k => decide (k < 32)
  | .linkCrcError _ _ row => decide (row < 16)
  | .resetSourceAssert c r => decide (1 ≤ c.val) && decide (c.val ≤ 12) && decide (1 ≤ r.val) && decide (r.val ≤ 6)
  | .resetSourceRelease c => decide (1 ≤ c.val) && decide (c.val ≤ 12)
  | .darnerFrameCheck _ _ _ errs _ => errs.all (fun e => decide (e.word < 369) && e.flip != 0)
  | .lgDevice p => p.length == 4
  | .lgOptions p => p.length == 4
  | .lgIv p => p.length == 16
  | .lgFrames p => decide (2 ≤ p.length)
  | .tapDbgtoken b => b.length == 240
  | .patrolScrub _ seen => seen.length == 8
  | .bootDirectoryRead b => b.length == 64
  | .uluatOpen _ _ _ cn => cn.length == 16
  | _ => true

end Sys2Proof
end

