-- ==== Sys2Proof/Tests/Slice0.lean ====
section
/-! SUPPORT. The model's own tests: worked values of the manual, ill-formed commands that WellFormed refuses, and, for every
statement with hypotheses, a state and operands that meet them. -/

namespace Sys2Proof.Tests
open Sys2Proof Sys2Proof.Machine Sys2Proof.Safety

/-! ### Registers and units -/

theorem wit_registers : (0x1F002000000 : Addr).toNat % 8 = 0 ∧ regOf 0x1F000000008 = some { kind := .rstCause } ∧ RegKind.rstCause ∈ regsRo
    ∧ (∃ r, regOf 0x1F000002018 = some r ∧ (r.kind, 0xC000FFFFFFFFFFFF) ∈ regsRw) ∧ (∃ r, regOf 0x1F000000800 = some r ∧ (r.kind, 0x00F0000000000000) ∈ regsW1c)
    ∧ chapterGrant { kind := .rstCause } 0x2000 true = false ∧ regOf 0x1F000000018 = none ∧ ¬ ((0x10 : BitVec 16) = 0x10 ∧ dbgLevel {} = 2) :=
  ⟨rfl, by decide, by decide, ⟨_, rfl, by decide⟩, ⟨_, rfl, by decide⟩, by decide, by decide, by decide⟩
abbrev unitSt (k : Nat) (x : Wrapper) : State := { wraps := tset {} [] k x }
theorem wit_units_calm : Calm (unitSt 0 { st := .draining }) 0 ∧ Calm {} (unitKey (.quad 0)) ∧ Calm {} (unitKey (.queue 5)) ∧ Calm {} (unitKey (.port 0 3))
    ∧ Calm {} (unitKey (.router 2)) :=
  ⟨.inl (.inl (by decide)), .inr (.inl (by decide)), .inr (.inr (.inl (by decide))), .inr (.inr (.inr (by decide))), .inl (.inr (by decide))⟩
theorem wit_units : (wrapOf {} 0).st = .running ∧ (wrapOf (unitSt 0 { st := .draining }) (unitKey (.engine 0))).st = .draining
    ∧ (∀ n ∈ unitDoms (unitKey (.port 0 3)), (domOf (unitSt 6003 { st := .waking }) n).cur < 2) ∧ unitHeld (unitSt 6003 { st := .waking }) 6003 = false
    ∧ unitReady (unitSt 6003 { st := .waking }) 6003 = true ∧ (wrapOf (unitSt 6003 { st := .waking }) 6003).st = .waking
    ∧ unitReady {} (unitKey (.controller 0)) = false := by decide +kernel
/-! ### Word cells -/

/-- A state in which cell 0 has the given control word and slot 0, and its clock, RCLK0 of P0, runs out of reset. -/
def cellSt (ctl slot : Nat) (x : Cell) : State :=
  { cells := tset {} [] 0 x
    frames := [(frameKey 0 0 0, [BitVec.ofNat 64 slot, 0, 0, 0, 0, 0, BitVec.ofNat 64 ctl]),
               (frameKey 0 144 0, [BitVec.ofNat 64 (2 ^ 41)])]
    panels := [(0, { sr := true })]
    rclks := [(0, { rst := false })]
    clk := { plls := [(0, { cfg := 2 ^ 63, odiv := 1, stat := 2 ^ 62 })] } }

def cellIn0 : CellIn := { wi0 := 0x0000810000000000, wi1 := 5, wi2 := 0, wi3 := 0, bi := 0 }
def pins0 : CellPins := { wi0 := 0x0000810000000000, wi1 := 5, wi2 := 0, wi3 := 0, bi := 0, ci := false, ei := true }

theorem wit_cellSees : CellSees (cellSt 0 (4 * 2 ^ 42) {}) 0 cellIn0 pins0 ∧ CellSees (cellSt 1 0 {}) 0 cellIn0 pins0
    ∧ CellSees (cellSt 0 (4 * 2 ^ 42) { co := true }) 1 cellIn0 { pins0 with ci := true, ei := false }
    ∧ ¬ InputUsed { frames := [(frameKey 0 0 0, [0, 0, 0, 0, 0, 0, 0, 31])] } 0 0 := by decide +kernel

theorem wit_cellLogic : CellRuns (cellSt 0 (1 * 2 ^ 42) {}) 0 pins0 1 ∧ CellRuns (cellSt 0 (2 * 2 ^ 42) {}) 0 pins0 2
    ∧ CellRuns (cellSt 0 (0x10 * 2 ^ 42) {}) 0 pins0 0x10 ∧ CellRuns (cellSt 0 (0x11 * 2 ^ 42) {}) 0 pins0 0x11
    ∧ CellRuns (cellSt 0 (0x12 * 2 ^ 42) {}) 0 pins0 0x12 ∧ CellRuns (cellSt 0 (0x13 * 2 ^ 42) {}) 0 pins0 0x13
    ∧ CellClocked (cellSt 0 0 {}) 0 pins0 0 ∧ cellEnabled (cellCtl (cellSt 0 0 {}) 0) pins0 = true := by decide +kernel

theorem wit_cellHolds : CellClocked (cellSt 0 (4 * 2 ^ 42 + 2 ^ 24) {}) 0 pins0 4
    ∧ cellPred (nfld (cellNow (cellSt 0 (4 * 2 ^ 42 + 2 ^ 24) {}) 0 pins0) 27 24)
        (cellOf (cellSt 0 (4 * 2 ^ 42 + 2 ^ 24) {}) 0) pins0 = false
    ∧ CellClocked (cellSt 0x100 (6 * 2 ^ 42) {}) 0 pins0 6 ∧ cellEnabled 0x100 pins0 = false
    ∧ CellClocked (cellSt 0x100 (0x25 * 2 ^ 42) {}) 0 pins0 0x25 := by decide +kernel

theorem wit_cellSums : CellRuns (cellSt 0 (4 * 2 ^ 42) {}) 0 pins0 4 ∧ CellRuns (cellSt 0 (5 * 2 ^ 42 + 2 ^ 17) {}) 0 pins0 5
    ∧ CellRuns (cellSt 0 (6 * 2 ^ 42 + 3 * 2 ^ 22) {}) 0 pins0 6 := by decide +kernel

theorem wit_cellLaneOps : CellRuns (cellSt 0 (7 * 2 ^ 42) {}) 0 pins0 7 ∧ CellRuns (cellSt 0 (8 * 2 ^ 42) {}) 0 pins0 8
    ∧ CellRuns (cellSt 0 (9 * 2 ^ 42) {}) 0 pins0 9 ∧ CellRuns (cellSt 0 (0x14 * 2 ^ 42) {}) 0 pins0 0x14
    ∧ CellRuns (cellSt 0 (0x15 * 2 ^ 42) {}) 0 pins0 0x15 ∧ CellRuns (cellSt 0 (0x16 * 2 ^ 42) {}) 0 pins0 0x16
    ∧ CellRuns (cellSt 0 (0x17 * 2 ^ 42) {}) 0 pins0 0x17 := by decide +kernel

theorem wit_cellFields : CellRuns (cellSt 0 (0x18 * 2 ^ 42) {}) 0 pins0 0x18 ∧ CellRuns (cellSt 0 (0x19 * 2 ^ 42) {}) 0 pins0 0x19
    ∧ CellRuns (cellSt 0 (0x1A * 2 ^ 42) {}) 0 pins0 0x1A ∧ CellRuns (cellSt 0 (0x1B * 2 ^ 42) {}) 0 pins0 0x1B := by decide +kernel

theorem wit_cellProducts : CellRuns (cellSt 0 (0x20 * 2 ^ 42) {}) 0 pins0 0x20
    ∧ CellRuns (cellSt 0 (0x21 * 2 ^ 42) {}) 0 pins0 0x21 ∧ CellRuns (cellSt 0 (0x22 * 2 ^ 42) {}) 0 pins0 0x22
    ∧ CellRuns (cellSt 0 (0x23 * 2 ^ 42) {}) 0 pins0 0x23 ∧ CellRuns (cellSt 0 (0x24 * 2 ^ 42) {}) 0 pins0 0x24
    ∧ CellRuns (cellSt 0 (0x25 * 2 ^ 42) {}) 0 pins0 0x25 := by decide +kernel

theorem wit_bitMode : nbit (cellCtl (cellSt 1 0 {}) 0) 0 = true ∧ rclkRuns (cellSt 1 0 {}) (cellRclk (cellSt 1 0 {}) 0) = true
    ∧ nbit (cellCtl (cellSt 1 0 {}) 0) 10 = false ∧ (cellSt 1 0 {}).lg.hosted = false
    ∧ nbit (cellCtl { cellSt 0x401 0 {} with rclks := [] } 0) 10 = true
    ∧ rclkRuns { cellSt 0x401 0 {} with rclks := [] } 0 = true ∧ rclkInReset { cellSt 0x401 0 {} with rclks := [] } 0 = true
    ∧ rclkRuns { cellSt 1 0 {} with clk := {} } 0 = false := by
  decide +kernel

/-- The classifier of the manual's worked example: X1 extracts bytes 12 and 13 of W1 (slot word 0x6280_4000_03E0). -/
theorem test_ext_worked : (cellExecute 0x6280400003E0 { pins0 with wi1 := 0x0000008100000000 } {}).wo0 = 0x81 := by decide +kernel
/-- X2 compares with 0x0081 and drives Z on BO0 (slot word 0x1A08_0010_0081). -/
theorem test_cmp_worked : (cellExecute 0x1A0800100081 { pins0 with wi0 := 0x81 } {}).bo = 0b0011#4 := by decide +kernel

/-! ### Regional clocks, reset trees, the governor -/

/-- RCLK0 of P0 with the given configuration word and status. -/
def rclkSt (cfg : Nat) (x : Rclk) : State :=
  { frames := [(frameKey 0 144 0, [BitVec.ofNat 64 cfg])], panels := [(0, { sr := true })], rclks := tset {} [] 0 x
    clk := { plls := [(0, { cfg := 2 ^ 63, odiv := 1, stat := 2 ^ 62 })] } }

theorem wit_clockSwitch : fld (rclkCfg (rclkSt 0x460000000000 {}) 0) 47 46 = 1 ∧ fld (rclkCfg (rclkSt 0x160000000000 {}) 0) 45 44 = 1
    ∧ bitOf (rclkCfg (rclkSt 0x460000000000 {}) 0) 41 = true ∧ panelReleased (rclkSt 0x460000000000 {}) 0 = true
    ∧ bitOf (rclkCfg (rclkSt 0x160000000000 {}) 0) 41 = true ∧ tapUsed (rclkSt 0x160000000000 {}) 0 1 = true
    ∧ tapUsed { frames := [(frameKey 0 144 0, List.replicate 16 0 ++ [0x3E0])] } 0 1 = false
    ∧ (rclkGet (rclkSt 0 { pend := some 3, queued := some 1 }) 0).pend = some 3 ∧ (rclkGet (rclkSt 0 { gated := true }) 0).gated = true := by
  decide +kernel

theorem wit_resetTree : treeSrcHolds { State.reset with pending := [] } 5 .wide = true
    ∧ treeSrcHolds { rclkSt 0 {} with rst := { narrow := [(2, 0, 0)] } } 0 .panel = true ∧ treeSrcHolds { } 16 .load = true
    ∧ treeSrcHolds (rclkSt 0x40000000000 {}) 0 .rrst = true ∧ treeSrcHolds (rclkSt 0 { forced := true }) 0 .force = true
    ∧ treeHeld (rclkSt 0x20000000000 {}) 0 = false ∧ rclkRuns (rclkSt 0x20000000000 {}) 0 = true := by decide +kernel

theorem wit_governor : ({ gov := { dies := [(0, { est := 60 })] } } : State).rst.hubLoading = false
    ∧ 0 < (dieGov { gov := { dies := [(0, { est := 60 })] } } 0).est := by decide +kernel

/-! ### Signal engines -/

/-- Engine 0 running, with an instruction word at address 0. -/
def engSt (w : Nat) (x : Engine) : State :=
  { engines := tset {} [] 0 { x with st := .running, pm := [(0, { val := BitVec.ofNat 64 w, pois := false })] } }

theorem wit_engMoves :
    (∀ op ∈ [0x00, 0x10, 0x11, 0x12, 0x13, 0x14, 0x25, 0x26, 0x0D, 0x21, 0x22, 0x23, 0x24], EngIssues (engSt (op * 2 ^ 58) {}) 0 op)
    ∧ EngIssues (engSt (0x20 * 2 ^ 58) {}) 0 0x20
    ∧ (EngIssues (engSt (0x20 * 2 ^ 58 + 2 ^ 40) {}) 0 0x20 ∧ nbit (iMod (engWord (engSt (0x20 * 2 ^ 58 + 2 ^ 40) {}) 0)) 0 = true) := by
  decide

theorem wit_engCi16 : ∀ op ∈ [0x01, 0x02, 0x03, 0x04, 0x07, 0x09, 0x0A],
    EngIssues (engSt (op * 2 ^ 58 + 2 ^ 57) {}) 0 op ∧ iFmt (engWord (engSt (op * 2 ^ 58 + 2 ^ 57) {}) 0) = true := by decide

theorem wit_engCf32 : (∀ op ∈ [0x01, 0x02, 0x03, 0x04, 0x05, 0x06, 0x08, 0x09, 0x0A, 0x0C],
    EngIssues (engSt (op * 2 ^ 58) {}) 0 op ∧ iFmt (engWord (engSt (op * 2 ^ 58) {}) 0) = false)
    ∧ (∀ op ∈ [0x06, 0x0B], EngIssues (engSt (op * 2 ^ 58 + 2 ^ 57) {}) 0 op ∧
      iFmt (engWord (engSt (op * 2 ^ 58 + 2 ^ 57) {}) 0) = true) := by decide

theorem wit_roundNearest : isFinite32 (fRound 1).1 ∧ isFinite32 0x7F7FFFFF ∧ isFinite32 (fRound (2 ^ 250 + 1)).1 := by
  unfold isFinite32; decide

theorem wit_engSequence : (∀ op ∈ [0x30, 0x31, 0x32, 0x33], EngIssues (engSt (op * 2 ^ 58 + 9 * 2 ^ 40) {}) 0 op)
    ∧ EngIssues (engSt (0x37 * 2 ^ 58) {}) 0 0x37
    ∧ EngIssues (engSt (0x34 * 2 ^ 58 + 5 * 2 ^ 40) { s := [(0, { val := 3 })] }) 0 0x34
    ∧ EngIssues (engSt (0x33 * 2 ^ 58 + 2 ^ 57) {}) 0 0x33 ∧ innermost (engAt (engSt (0x33 * 2 ^ 58 + 2 ^ 57) {}) 0) = none
    ∧ noXtOut (engSt (0x37 * 2 ^ 58) {}) 0 = true := by decide

theorem wit_engControl : EngIssues (engSt (0x36 * 2 ^ 58) { ictl := 0x14 }) 0 0x36
    ∧ EngIssues (engSt (0x36 * 2 ^ 58) { ictl := 0x4 }) 0 0x36 ∧ (engAt (engSt (0x36 * 2 ^ 58) { ictl := 0x14 }) 0).flights = []
    ∧ waitMet (eng { engines := [(0, ({ st := .waiting, ipend := 1 } : Engine))] } 0) 0 = true
    ∧ EngIssues (engSt (0x35 * 2 ^ 58) {}) 0 0x35 ∧ waitMet (engAt (engSt (0x35 * 2 ^ 58) {}) 0) 0 = false
    ∧ EngIssues (engSt (0x35 * 2 ^ 58) { ipend := 1 }) 0 0x35 ∧ waitMet (engAt (engSt (0x35 * 2 ^ 58) { ipend := 1 }) 0) 0 = true
    ∧ EngIssues (engSt (0x38 * 2 ^ 58) {}) 0 0x38 ∧ EngIssues (engSt (0x38 * 2 ^ 58 + 2 ^ 40) { s := [(0, { val := 0x2000000 })] }) 0 0x38
    ∧ EngIssues (engSt (0x20 * 2 ^ 58 + 14 * 2 ^ 45 + 17 * 2 ^ 40) { wdt := 0xB, s := [(0, { val := 0xA5 })] }) 0 0x20
    ∧ EngIssues (engSt (0x20 * 2 ^ 58 + 14 * 2 ^ 45 + 17 * 2 ^ 40) { wdt := 0xB }) 0 0x20 := by decide

theorem wit_engSlots : SlotReady (engSt (2 ^ 38) {}) 0 0 true 1 ∧ SlotReady (engSt (2 ^ 39) {}) 0 0 true 2
    ∧ SlotReady (engSt (2 ^ 39 + 2 ^ 38) {}) 0 0 true 3 ∧ SlotReady (engSt (2 ^ 8) {}) 0 1 false 1
    ∧ SlotReady (engSt (2 ^ 9) {}) 0 1 false 2 ∧ SlotReady (engSt (2 ^ 9 + 2 ^ 8) {}) 0 1 false 3
    ∧ pendOf [({ val := 7 } : Lane)] = 0 ∧ pendOf [({ val := 7, pend := 1 } : Lane)] ≠ 0 := by decide

theorem wit_engEntries : engOff (engSt 0 { ictl := 0x10001, ipend := 1 }) 0 = false
    ∧ intEligible (engTick 0 (eng (engSt 0 { ictl := 0x10001, ipend := 1 }) 0)) = true
    ∧ excDue (engTick 0 (eng (engSt 0 { ictl := 0x10001, ipend := 1 }) 0)) = none
    ∧ (engReady 0 (eng (engSt (2 ^ 63 - 1) {}) 0)).2 = Ready.exc 1 0
    ∧ (engReady 0 (eng (engSt (2 ^ 63 - 1) { ictl := 0x10 }) 0)).2 = Ready.exc 1 0
    ∧ excDue (eng (engSt (0x21 * 2 ^ 58) { s := [(0, { val := 0, pois := true })] }) 0) = some (3, 0x20)
    ∧ fetchLost (engSt 0 {}) 7 = true ∧ (engReady 0 (engFetched (engSt 0 {}) 0 7)).2 = Ready.exc 4 0
    ∧ bitOf (engReady 0 (engFetched (engSt 0 {}) 0 7)).1.ictl 4 = false ∧ (eng (engSt 0 {}) 0).stepping = false
    ∧ (bitsOf 80 3).length = 2
    ∧ excDue ({ pm := [(0, { val := 0, pois := true })] } : Engine) = some (4, 0) := by decide

theorem wit_engRunStates : (eng (engSt 0 {}) 0).st = .running ∧ noXtOut (engSt 0 {}) 0 = true
    ∧ (eng (engSt 0 { halting := true, hcause := 1 }) 0).halting = true
    ∧ engFree (engPut { panels := [(0, { we := true })], engines := [(0, { ctl := 3 })] } 0 { ctl := 1 }) 0 = true
    ∧ bitOf (0xB : Word) 0 = true ∧ bitOf (0xB : Word) 1 = true ∧ bitOf (0x9 : Word) 1 = false ∧ stage {} < 22 := by decide

theorem wit_engVerdicts : verdictDue { xfers := [⟨0, 0, 1, false, 2, some 0, 1, false, 1, []⟩], vids := 1 } 0 1 = true
    ∧ verdictDue { xfers := [⟨0, 0, 1, false, 2, some 0, 1, true, 2, []⟩], vids := 1 } 0 2 = true
    ∧ pendOf [({ val := 7 } : Lane)] = 0 ∧ 4 < tget 0 [(3, 5)] 3 := by decide

/-! ### Banks -/

/-- Bank 0 owned by its panel on regional clock 0, which runs; the panel's writes are enabled. -/
def bankSt (b : Bank) : State :=
  { banks := tset {} [] 0 { b with own := { kind := 1, sel := 0 }, cfg := b.cfg &&& ~~~ (fldMask 36 32) },
    panels := [(0, { we := true, sr := true })], frames := [(frameKey 0 144 0, [2 ^ 41])],
    clk := { plls := [(0, { cfg := 2 ^ 63, odiv := 1, stat := 2 ^ 62 })] } }

theorem wit_bankAccess : BankOpen (bankSt {}) 0 ∧ bankDual 0 = true ∧ bankMode (bank (bankSt {}) 0) = false
    ∧ BankOpen (bankSt { cfg := 0x0000041000000111 }) 0 ∧ bankMode (bank (bankSt { cfg := 0x0000041000000111 }) 0) = true
    ∧ { req := 0x10000, word := 0 } ∈ (bank (bankSt { resv := [{ req := 0x10000, word := 0 }] }) 0).resv
    ∧ bankDual 1 = false ∧ ownerFabric (bank {} 0).own 0 = false := by decide

/-- Bank 1, with separate ports. -/
def bank1St : State :=
  { banks := tset {} [] 1 { own := { kind := 1, sel := 0 }, cfg := 0x0000040000000110 },
    panels := [(0, { we := true, sr := true })], frames := [(frameKey 0 144 0, [2 ^ 41])],
    clk := { plls := [(0, { cfg := 2 ^ 63, odiv := 1, stat := 2 ^ 62 })] } }

theorem wit_bankAccess_ports : BankOpen bank1St 1 ∧ bankDual 1 = false := by decide
theorem wit_bankAccess_busy : ownerFabric (bank (bankSt { busy := true }) 0).own 0 = true
    ∧ fld (bank (bankSt { busy := true }) 0).cfg 36 32 < 16 ∧ bankClocked (bankSt { busy := true }) 0 = true
    ∧ bankState (bankSt { busy := true }) 0 = 0 ∧ (bank (bankSt { busy := true }) 0).busy = true := by decide

theorem wit_bankAccess_edge : BankOpen (bankSt { valid := [(0, true)], last := some { i := 1, write := true, plain := true, word := 0, old := zeroWord, valid := true } }) 0
    ∧ rowValid (bank (bankSt { valid := [(0, true)] }) 0) 0 = true := by decide

theorem wit_bankErrors : BankOpen (bankSt { valid := [(0, true)] }) 0 ∧ rowValid (bank (bankSt { valid := [(0, true)] }) 0) 0 = true
    ∧ wrongBits 1 = 1 ∧ wrongBits 3 = 2 ∧ wrongBits 7 = 3 ∧ bitOf (bank (bankSt { valid := [(0, true)] }) 0).cfg 4 = true
    ∧ remapOf (bank (bankSt { valid := [(0, true)] }) 0) 0 = none
    ∧ bitOf (tget 0 (bank (bankSt { valid := [(0, true)] }) 0).remap 0) 63 = false := by decide

theorem wit_bankControl : ownerOf 0x0002000000790000 = { kind := 2, sel := 121 } ∧ ownerOf 0x0002000000790000 ≠ (bank {} 801).own
    ∧ portOfPanel (bankPanel 801) (0x2200 + 3) = true ∧ bankLoading {} 801 = false
    ∧ ¬ (ownerOf 0x0001000000200000).sel < 32
    ∧ remapOf (bank (bankSt {}) 0) 5 = none
    ∧ bitOf (tget 0 (bank (bankSt { remap := [(2, 0x8000000000000005)] }) 0).remap 2) 63 = true
    ∧ fld (tget 0 (bank (bankSt { remap := [(2, 0x8800000000000005)] }) 0).remap 2) 59 58 = 2 := by decide

theorem wit_bankService : BankSteps (bankSt { valid := [(3, true)] }) 0 ∧ ScrubSees (bank (bankSt { valid := [(3, true)] }) 0) 24
    ∧ twf false (bank (bankSt { valid := [(3, true)] }) 0).valid = true
    ∧ bitOf (bank (bankSt {}) 0).scrub 63 = true ∧ bistPhase (bank (bankSt {}) 0) = 0
    ∧ (∀ ph ∈ [1, 2, 3], BankSteps (bankSt { bist := mkWord [(63, 62, 1), (59, 58, ph)] }) 0
        ∧ bistPhase (bank (bankSt { bist := mkWord [(63, 62, 1), (59, 58, ph)] }) 0) = ph)
    ∧ bankCur (bank (bankSt {}) 0) = 0 ∧ bankCur (bank (bankSt { pwr := 0x30 }) 0) = 3
    ∧ fld (bank (bankSt { pwr := 0x31 }) 0).pwr 1 0 = 1 ∧ bankCur (bank (bankSt { pwr := 0x31 }) 0) = 3
    ∧ fld (bank (bankSt { pwr := 0x5, woken := true }) 0).pwr 1 0 = 1 := by decide

theorem wit_bankServes : bankMine 0 { cmd := .fadd, h := ⟨0, 0x10000000008, 0, 0, 0, 5, false⟩, data := [], flips := [], unit := 4096 } = true ∧ bankState (bankSt {}) 0 = 0
    ∧ bankClocked (bankSt {}) 0 = true := by decide

/-! ### The network -/

/-- Header of a request of initiator 0 to address a. -/
abbrev hdr (a : Nat) (len : Nat) (cls : Fin 4) : Hdr := ⟨0, BitVec.ofNat 48 a, len, 5, cls, 0, false⟩
abbrev ask (c : NCmd) (a len : Nat) (cls : Fin 4) : Req := { cmd := c, h := hdr a len cls, data := [], flips := [] }

theorem wit_nocRequests :
    Sends {} (ask .rd 0x11000000000 1 2) ∧ initSends {} 0x2000 = false
    ∧ (ask .rd 0x110000001F0 2 2).legal = false ∧ addrDest {} 0x11000000000 ≠ none ∧ c0tx {} (initPlace 0) = false
    ∧ (∀ c ∈ [NCmd.rd, .rde, .wr], ∃ d, Arrives {} (ask c 0x11000000000 1 2) d ∧ d.kind = .engine ∧ Arrives {} (ask c 0x10000000000 1 2) { d with kind := .bank, place := unitPlace 4096, dom := some 0x200 }) := by
  refine ⟨by decide, by decide, by decide, by decide, by decide, ?_⟩
  intro c hc
  refine ⟨{ kind := .engine, place := unitPlace 0, dom := some 0 }, ?_, rfl, ?_⟩ <;>
    · simp only [List.mem_cons, List.not_mem_nil, or_false] at hc
      rcases hc with rfl | rfl | rfl <;> decide +kernel

theorem wit_nocRequests_short :
    (∀ c ∈ [NCmd.wri1, .wri2, .wri4, .wri8], Arrives {} (ask c 0x11000000000 0 2) { kind := .engine, place := unitPlace 0, dom := some 0 })
    ∧ (∀ c ∈ [NCmd.fadd, .swap, .rsvrd, .cwr], Arrives {} (ask c 0x10000000000 0 2) { kind := .bank, place := unitPlace 4096, dom := some 0x200 }
        ∧ bankAdmit {} (ask c 0x10000000000 0 2) = 0)
    ∧ unitOpen {} 0 = true ∧ unitOpen {} 4096 = true ∧ bankAdmit {} (ask .rd 0x10000000000 1 2) = 0 := by decide +kernel

theorem wit_nocRequests_way :
    Injected { routers := [(5, { chg := 2 ^ 63 })] } (ask .rd 0x11000000000 1 2) { kind := .engine, place := unitPlace 0, dom := some 0 }
    ∧ way { routers := [(5, { chg := 2 ^ 63 })] } 5 16 = .waits ∧ way { routers := [(5, { closed := 2 })] } 5 16 = .shut 5
    ∧ ifaceWaits { noc := { dead := [(0, 5)] } } (ask .rd 0x11000000000 1 2) = true := by decide +kernel

/-- A response to tag 5 of port 0 of panel 0, or of the debug port, its request outstanding. -/
abbrev coming (i : Nat) : Resp := { init := i, tag := 5, kind := .rdr, addr := 0x11000000000, data := [zeroWord], place := unitPlace 0 }
abbrev comingSt (i : Nat) : State :=
  { noc := { responses := [coming i], outst := [{ init := i, tag := 5, cls := 2, addr := 0x11000000000, len := 1 }] } }
theorem wit_nocResponses : (∀ i ∈ [0x10, 0x1000, 0x2000], Coming (comingSt i) (coming i) true { init := i, tag := 5, cls := 2, addr := 0x11000000000, len := 1 }
    ∧ respWay (comingSt i) (coming i) = .clear)
    ∧ respWay { comingSt 0x10 with routers := [(5, { chg := 2 ^ 63 })] } (coming 0x10) = .waits
    ∧ respWay { comingSt 0x10 with routers := [(16, { closed := 8 })] } (coming 0x10) = .shut 16
    ∧ unitHeld {} 6000 = false := by decide +kernel

/-- A refused request of engine 0, eight words long, and its transfer. -/
abbrev ownErr : Resp := { init := 0x1000, tag := 5, kind := .err, code := 0x0B, cls := 0, addr := 0x11000008000, len := 3, own := true }
theorem wit_nocResponses_own : First { noc := { responses := [ownErr] } } ownErr
    ∧ (wrapOf {} 0).st = .running ∧ unitHeld {} 0 = false
    ∧ (List.range (4 * ownErr.len)).filter (fun i =>
        xferHit { addr := 0x11000008000, laddr := 0, len := 8, write := true, cls := 0, early := none } (ownErr.addr / 32 * 4 + i)) ≠ [] := by
  decide +kernel

theorem wit_nocControl : linkExists 16 1 = true ∧ linkClosed {} 16 1 = false ∧ linkDown {} 16 1 = false
    ∧ linkDown { routers := [(16, { link := 32 }), (32, { link := 128 })] } 16 1 = true
    ∧ bitOf (routerOf {} 16).chg 63 = false ∧ 0 < (routerInits 16).length
    ∧ fld (routerOf {} (initPlace 0 / 16)).hold 47 32 ≠ 0 ∧ reqEng (ask .rd 0x11000008000 1 2) = 1 := by decide

/-! ### External memory -/

/-- Controller 0 enabled, in state st, its guard READY. -/
def mcSt (st : Nat) (g : Guard) : State :=
  { mcs := [(0, { cfg := 2 ^ 32, stat := mkWord [(63, 60, st)] })], guards := tset {} [] 0 { g with stat := g.stat ||| 0x2000000000000000 } }

theorem wit_memoryMapping : ({ s := 1, gb := 116508, gsel := [0x8808], maps := [[], [0x1010, 0x2020, 0x4040, 0x10080, 0x20100, 0x40200, 0x80400]] } : MemMap).locate 0 0x01234E40
    = { sel := 1, bank := 59, group := 145, line := 1 } := by decide +kernel

theorem wit_mcControl : (∀ st ∈ [0, 1, 2, 3, 6], mcState (mcOf (mcSt st {}) 0) = st) ∧ McIdle (mcSt 2 {}) 0
    ∧ fld (mcOf (mcSt 2 {}) 0).ctl 63 48 ≠ 0 ∧ bitOf (mcOf (mcSt 0 {}) 0).cfg 32 = true ∧ wideActive (mcSt 0 {}).rst = false
    ∧ (domOf { mcSt 0 {} with pwr := { (mcSt 0 {}).pwr with doms := [(0x440, { cur := 3 })] } } 0x440).cur = 3
    ∧ (∀ st ∈ [4, 5], mcState (mcOf (mcSt st {}) 0) = st) := by decide

abbrev mreq (c : NCmd) (len : Nat) : Req := { cmd := c, h := ⟨0, 0, len, 5, 2, 0xFFFFFFFFFFFFFFFF, false⟩, data := [], flips := [] }

theorem wit_guardRequests :
    (∀ c ∈ [NCmd.rd, .rde, .wr], Arrives (mcSt 2 {}) (mreq c 2) { kind := .mem 0, place := 16 * routerAt 1 0 + 10, dom := some 0x440 } ∧ Sends (mcSt 2 {}) (mreq c 2))
    ∧ (∀ c ∈ [NCmd.fadd, .swap, .rsvrd, .cwr, .wri1, .wri2, .wri4, .wri8],
        Arrives (mcSt 2 {}) (mreq c 0) { kind := .mem 0, place := 16 * routerAt 1 0 + 10, dom := some 0x440 })
    ∧ unitOpen (mcSt 2 {}) 5000 = true ∧ mcServing (mcSt 2 {}) 0 = true ∧ mcServing (mcSt 6 {}) 0 = false ∧ mcState (mcOf (mcSt 5 {}) 0) = 5
    ∧ xferFill (mcSt 2 {}) (mreq .wr 2) = mreq .wr 2 ∧ reqLines (mreq .wr 2) = [0] ∧ lineFull (mreq .wr 2) 0 = true
    ∧ cached (grdOf (mcSt 2 { cache := [(0, false)] }) 0) (pageAt (mcSt 2 {}) 0 0) = true ∧ minorOf (grdOf (mcSt 2 {}) 0) 0 ≠ 126
    ∧ ¬ dataGroups (memMap (mcSt 2 {})).gb ≤ ((memMap (mcSt 2 {})).locate 0 0).group := by decide +kernel
theorem wit_guardRequests_window : Governs (grdOf (mcSt 2 {}) 0) 0 0 ∧ Grants (winGet (grdOf (mcSt 2 {}) 0) 0) 0 0 true
    ∧ ¬ Grants (winGet (grdOf (mcSt 2 {}) 0) 0) 4 0 true := by unfold Governs Grants; decide +kernel

abbrev pd1 (c : NCmd) : GPend := { req := { mreq c 1 with h := ⟨0, 0, 1, 5, 2, 0xFFFFFFFF, false⟩ }, early := false }
theorem wit_guardLines : (∀ c ∈ [NCmd.rd, .wr], OneLine (mcSt 2 { cache := [(0, false)], pend := [pd1 c], minors := [(0, 5)] }) 0 (pd1 c) 0)
    ∧ minorOf { cache := [(0, false)], minors := [(0, 5)] } 0 = 5 ∧ minorOf {} 0 = 127 ∧ lineTouched (pd1 .wr).req 0 = true ∧ lineFull (pd1 .wr).req 0 = false
    ∧ mcServing (mcSt 2 { reenc := [3] }) 0 = true ∧ majorOf {} 3 = 0 := by decide +kernel

theorem wit_guardMetadata : gState (grdOf (mcSt 2 {}) 1) = 0 ∧ gState (grdOf { guards := [(0, { stat := 0x1000000000000000 })] } 0) = 1
    ∧ missing (gsOf (mcSt 2 {}) 0) 0 ≠ [] ∧ missing (gsOf (mcSt 2 { cache := [(915408, false)] }) 0) 0 = [0]
    ∧ pageAt (mcSt 2 {}) 0 ((reqLines (pd1 .rd).req).headD 0) = 0
    ∧ fld (mcOf (mcSt 2 {}) 0).ctl 39 24 ≠ 0 ∧ oldestDirty { cache := [(5, false), (7, true)] } = some 7
    ∧ metaParent 58254 0 = (some 915408, 0) := by decide +kernel

/-! ### Lanes and links -/

/-- A native link of lanes 0 and 1, or an Ethernet port of lane 0 where mode is 1, in state st with mask 3. -/
abbrev lnSt (mode st : Nat) (x : Link) : State :=
  { lanes := [(0, { cfg := mkWord [(63, 60, mode), (44, 40, if mode = 1 then 1 else 2), (39, 32, 0), (20, 19, if mode = 1 then 0 else 1)],
                    stat := mkWord [(63, 60, st), (59, 58, 2), (57, 56, 2), (54, 54, 1), (47, 32, 3)] }),
              (1, { cfg := mkWord [(63, 60, mode)], stat := mkWord [(59, 58, 2), (57, 56, 2)] })],
    lks := tset {} [] 0 x, panels := [(0, { sr := true, we := true })] }

theorem wit_linkFrames : lkUp (lnSt 2 5 {}) 0 = true ∧ lnIsLead (lnSt 2 4 {}) 0 = true ∧ lnState (lnSt 2 4 {}) 0 ≠ 5
    ∧ Opened (lnSt 2 5 { opened := true }) 0 ∧ payloadFits (List.replicate 32 0) = true ∧ lnMode (lnSt 2 5 {}) 0 = 2 := by decide

theorem wit_linkBringUp : (∀ st ∈ [1, 2, 3, 4], lnIsLead (lnSt 2 st {}) 0 = true ∧ lnState (lnSt 2 st {}) 0 = st ∧ lnNative (lnSt 2 st {}) 0 = true)
    ∧ bscan {} = false ∧ lnNative (lnSt 1 3 {}) 0 = false ∧ lnIsLead (lnSt 1 3 {}) 0 = true
    ∧ max 1 (lnWidth (lnSt 2 2 {}) 0 - 1) ≤ popc (3 &&& 3) ∧ popc (0 &&& 3) < max 1 (lnWidth (lnSt 2 2 {}) 0 - 1)
    ∧ CapLacks { parts := [(16, [1]), (17, [2])] } 1 2 ∧ CapLacks { parts := [(32, [1]), (33, [2])] } 2 2
    ∧ nbit (lnF (lnSt 2 5 {}) 0 47 32) 1 = true ∧ nclr (lnF (lnSt 2 5 {}) 0 47 32) 1 ≠ 0
    ∧ bitOf (laneOf (lnSt 2 5 {}) 0).stat 54 = true ∧ lnMode (lnSt 1 5 {}) 0 = 1 := by decide
/-- A codeword with n symbols in error on lane 0. -/
abbrev cwOf (n : Nat) : CwSeen := { head := true, errs := (List.range n).map (fun i => (i, 1)) }
/-- Lane 0 at a PAM4 rate, b codewords lost. -/
abbrev pamSt (b : Nat) : State := { lanes := [(0, { cfg := 0x0800000000000000, cwBad := b })] }
theorem wit_linkFrames_codeword : bitOf (laneOf (pamSt 7) 0).cfg 59 = true ∧ (laneOf (pamSt 7) 0).cwBad = 7 ∧ (laneOf (pamSt 6) 0).cwBad < 7
    ∧ cwSyms (cwOf 0) = 0 ∧ cwSyms (cwOf 1) = 1 ∧ cwSyms (cwOf 15) = 15 ∧ cwSyms (cwOf 16) = 16 := by decide +kernel
theorem wit_linkFrames_block (l : LaneId) : Block l (fun cw => .ctlIdle l cw) := .idle
/-- A frame of one unit under SEQ 0. -/
abbrev linkFrameOf (ty units : Byte) (tag : BitVec 128) : NFrame := { ftype := ty, units := units, seq := 0, payload := List.replicate 32 0, tag := tag }
theorem wit_linkFrames_tag (ty : Byte) : frameOpen {} 0 (linkFrameOf ty 1 (Config.bootTag (frameHead ty.toNat 1 0 0 ++ List.replicate 32 0))) = some (List.replicate 32 0) := by
  simp [frameOpen, linkFrameOf]
theorem wit_linkFrames_badTag : frameOpen {} 0 (linkFrameOf 1 0 0) = none ∧ (linkFrameOf 1 0 0).seq.toNat = 0 := by decide
theorem wit_linkBringUp_probe : Probed (lnSt 2 1 {}) 0 3 3 := by
  intro i
  rcases i with _ | _ | i
  · decide
  · decide
  · have h : ¬ (i + 2 < lnWidth (lnSt 2 1 {}) 0) := by
      have : lnWidth (lnSt 2 1 {}) 0 = 2 := by decide
      omega
    have h2 : nbit 3 (i + 2) = false := by
      unfold nbit; rw [Nat.shiftRight_eq_div_pow, Nat.div_eq_of_lt]
      · rfl
      · have := Nat.pow_le_pow_right (n := 2) (by decide) (Nat.le_add_left 2 i); omega
    simp [h, h2]
theorem wit_linkBringUp_kcv : capKcv (capHears { parts := [(32, List.replicate 14 0), (33, List.replicate 14 0)], mine := List.replicate 38 0 } 2 2 (List.replicate 14 0))
      = capKcv (List.replicate 38 0) ∧ capNonce (capHears { parts := [] } 1 2 [7]) ≠ capNonce (List.replicate 38 1) := by decide

/-- Whichever regional clock of panel 0 a stream names, its tree is released. -/
abbrev strmSt (s : State) : State := { s with rclks := (List.range 16).map (fun r => (r, { rst := false })) }
theorem wit_linkPaths_stream (st : Nat) : strmHeld (strmSt (lnSt 1 5 {})) 0 st = false ∧ strmHeld (lnSt 1 5 {}) 0 st = true := by
  have h : (∀ c : Fin 16, rclkInReset (strmSt (lnSt 1 5 {})) (16 * 0 + c) = false) ∧ ∀ c : Fin 16, rclkInReset (lnSt 1 5 {}) (16 * 0 + c) = true := by decide
  exact ⟨h.1 _, h.2 _⟩
theorem wit_linkPaths : 1 ≤ lkUnits (lnSt 2 5 {}) 0 ∧ lnLead (lnSt 1 5 {}) 0 = 0 ∧ lnLead (lnSt 2 5 {}) 0 = 0
    ∧ QueueRuns { lnSt 2 5 {} with lanes := [(0, { cfg := mkWord [(63, 60, 2), (44, 40, 2)], stat := mkWord [(63, 60, 5)], dqCtl := 0xA000000000000000 })] } 0
    ∧ descOwn [mkWord [(63, 48, 64)], 1] = true ∧ descLen [mkWord [(63, 48, 64)], 1] = 64 ∧ descOwn [0, 0] = false
    ∧ (wrapOf ({ wraps := [(5200, { st := .stopped })] } : State) 5200).st = .stopped ∧ (panelOf {} 0).iso = 0 := by decide

/-- Quad 0 as one link of its four lanes. -/
abbrev quadSt (st pw ctl : Nat) : State :=
  { lanes := (0, { cfg := mkWord [(63, 60, 2), (44, 40, 4)], stat := mkWord [(63, 60, st), (59, 56, pw)] }) ::
      [1, 2, 3].map (fun k => (k, { cfg := mkWord [(63, 60, 2)], stat := mkWord [(59, 56, pw)] })),
    quads := tset {} [] 0 { ctl := BitVec.ofNat 64 ctl } }
theorem wit_linkPaths_power : lnIsLead (quadSt 0 0 0) 0 = true ∧ lnWidth (quadSt 0 0 0) 0 = 4 ∧ lnState (quadSt 0 0 0) 0 = 0
    ∧ (quadOf (quadSt 0 0 0) 0).ctl = 0 ∧ (∀ k, k < 4 → lnLead (quadSt 0 0 0) k = 0)
    ∧ lnState (quadSt 5 10 0xAAAA) 0 = 5 ∧ (quadOf (quadSt 5 10 0xAAAA) 0).ctl = 0xAAAA
    ∧ (∀ k, k < 4 → lnF (quadSt 5 10 0xAAAA) k 59 56 = 10) := by decide

/-! ### The loader -/

/-- A loader in STATE st of a load from source src of the panels m, of a KIND. -/
abbrev ldSt (st src kind m : Nat) (x : Loader) : State :=
  { ld := { x with src := src, stat := mkWord [(63, 60, st), (55, 52, src), (51, 48, kind), (31, 0, m)] } }
/-- A header of a KIND and FLAGS for the panels m, with 8 bytes of body and so many more in units of 2 ^ 24. -/
abbrev ldHdrB (kind flags m big : Nat) : List Byte :=
  [0x56, 0x58, 0x39, 0x43, 1] ++ leBytes 1 kind ++ leBytes 1 flags ++ [0] ++ leBytes 4 m ++ [0x00, 0x4F, 0x09, 0x0D] ++
    [8, 0, 0] ++ leBytes 1 big ++ [BitVec.ofNat 8 (big / 256), 0, 0, 0] ++ List.replicate 40 0

theorem wit_loadReceives_start : hubGrant {} 0 = true ∧ hubGrant {} 0x3000 = false ∧ fld (0 : Word) 35 32 ≤ 4 ∧ ldState {} = 0
    ∧ (∀ l, l < 8 → lnMode { lanes := [0, 1, 2, 3, 4, 5, 6, 7].map (fun k => (k, { cfg := 0x3000000000000000 })) } l = 3)
    ∧ (∀ st ∈ [1, 2, 3, 4, 5], ldState (ldSt st 0 3 2 {}) = st) ∧ Takes (ldSt 1 1 3 2 {}) 1 := by decide
theorem wit_loadReceives_header : (ldHdrB 3 0 2 0).length = 64 ∧ (hdrOf (ldHdrB 3 0 2 0)).ok = true ∧ (hdrOf (ldHdrB 9 0 2 0)).ok = false
    ∧ (hdrOf (ldHdrB 3 0 2 0)).signed = false ∧ (hdrOf (ldHdrB 3 1 2 0)).enc = true ∧ secState {} = 0 ∧ ldPhase {} = 0
    ∧ (hdrOf (ldHdrB 3 0 2 16)).total > 2 ^ 28 ∧ (hdrOf (ldHdrB 1 0 1 0)).kind = 1 ∧ (hdrOf (ldHdrB 1 0 1 0)).panels = 1
    ∧ (hdrOf (ldHdrB 1 0 1 0)).total ≤ 8388608 := by decide
theorem wit_loadReceives_policy : secState { sec := { state := setBit 0 62 true } } ≠ 0 ∨ secState { sec := { state := setBit 0 61 true } } ≠ 0
    ∨ secState { sec := { state := 0x4000000000000000 } } ≠ 0 := by decide
theorem wit_loadReceives_directory :
    leNat ((([0x01, 0x00, 0x58, 0x39, 0x52, 0x49, 0x44, 0x56] ++ List.replicate 56 0 : List Byte).drop (8 * 0)).take 8) = 0x5644495239580001
    ∧ leNat (([0x01, 0x00, 0x58, 0x39, 0x52, 0x49, 0x44, 0x56] ++ List.replicate 56 0 : List Byte).drop 40) = 0 := by decide
theorem wit_loadReceives_baste : basteState (ldSt 1 0 2 2 { waitMem := true }) = 2
    ∧ basteState { ldSt 1 0 2 2 { waitMem := true, area := 2, cold := 3 } with mcs := [0, 1, 2, 3, 4, 5, 6, 7].map (fun k => (k, { cfg := 0x0000000100000000 })) } = 1 := by
  decide
theorem wit_loadReceives_baste_ready : basteState { ldSt 1 0 2 2 { waitMem := true, area := 2 } with
    mcs := [0, 1, 2, 3, 4, 5, 6, 7].map (fun k => (k, { cfg := 0x0000000100000000, stat := 0x2000000000000000 })),
    guards := [0, 1, 2, 3, 4, 5, 6, 7].map (fun k => (k, { stat := 0x2000000000000000 })) } = 0 := by decide

/-- A body of an empty partial stream: TRAILER and END. -/
abbrev body0 : List Word := [0xE000000000000001, 0x00000000C0804000, 0xF000000000000000]
abbrev verifySt : State := ldSt 2 1 3 2 { rx := ldHdrB 3 0 2 0 }
theorem wit_loadCommits_codes : (ldHdr verifySt).signed = false ∧ (ldHdr verifySt).enc = false ∧ recAll 1 (wordsOf (List.replicate 8 (0 : Byte))) = none
    ∧ (ldHdr (ldSt 2 1 3 2 { rx := ldHdrB 3 2 2 0 })).signed = true ∧ (ldHdr (ldSt 2 1 3 2 { rx := ldHdrB 3 1 2 0 })).enc = true
    ∧ ldPlain verifySt = some [] ∧ ldPlain (ldSt 2 1 3 2 { rx := ldHdrB 3 1 2 0 }) = none ∧ recAll 0 [] = none := by decide
theorem wit_loadCommits_passes : ldVerify (ldSt 2 1 3 2 { rx := (ldHdrB 3 0 2 0).set 16 24 ++ body0.flatMap (fun w => leBytes 8 w.toNat) }) false = (0, 0) ∧ ldKind verifySt = 3 := by decide +kernel
theorem wit_loadCommits_records (w : Word) (h : w ∈ ([0x3000000000000002, 0x5000000000000004, 0xE000000000000001, 0xF000000000000000, 0x6000000000000001] : List Word)) :
    ∃ r rest, Waits (ldSt 3 1 3 2 { isolated := true, records := w :: List.replicate 8 0 }) (fld w 63 60) r rest := by
  simp only [List.mem_cons, List.not_mem_nil, or_false] at h
  rcases h with rfl | rfl | rfl | rfl | rfl <;> exact ⟨_, _, by decide, rfl, rfl, rfl, by decide⟩
/-- COMMIT waits for a MEM record of two words for bank 96. -/
abbrev memSt : State := ldSt 3 1 3 2 { rx := ldHdrB 3 0 2 0, isolated := true, records := [0x4000000000000003, 0x10000600000, 7, 9] }
theorem wit_loadCommits_mem : (∃ r rest, Waits memSt 4 r rest ∧ r.mem (ldHdr memSt).comp = some (0x10000600000, [7, 9]))
    ∧ memBank 0x10000600000 = some 96 ∧ bankState memSt 96 = 0 ∧ ownerAccepts (bank memSt 96).own 0x11 = true
    ∧ ownerAccepts (bank { memSt with banks := [(96, { own := { kind := 1, sel := 3 } })] } 96).own 0x11 = false :=
  ⟨⟨_, _, ⟨by decide, rfl, rfl, rfl, by decide⟩, by decide⟩, by decide⟩
/-- COMMIT waits for one FRAME of panel 1 at a column. -/
abbrev frameSt (col : Nat) : State :=
  ldSt 3 1 3 2 { rx := ldHdrB 3 0 2 0, isolated := true, records := mkWord [(63, 60, 1), (59, 55, 1), (54, 47, col), (42, 32, 1), (31, 0, 368)] :: List.replicate 368 0 }
/-- The first record waiting is one FRAME of one frame at a column of panel 1. -/
abbrev oneFrame (s : State) (col : Nat) : Bool :=
  match recHead s.ld.records with
  | some (r, _) => r.rtype == 1 && (match r.frames (ldHdr s).comp with
    | some [(f, _)] => f.col == col && f.p == 1
    | _ => false)
  | none => false
theorem wit_loadCommits_frame : oneFrame (frameSt 3) 3 = true ∧ oneFrame (frameSt 150) 150 = true := by decide +kernel

theorem wit_loadStarts : (panelOf { panels := [(1, { iso := 1 })] } 1).iso = 1 ∧ (panelOf { panels := [(1, { iso := 3 })] } 1).iso = 3
    ∧ (∀ code, code < 4 → (let s := ldSt 4 1 3 2 { waited := true, trailer := 0x00000000C0804000 + (BitVec.ofNat 64 code) <<< 6 }
        ldState s = 4 ∧ slotByte s / 64 = code)) ∧ ldPlls (ldSt 4 1 3 2 {}) = []
    ∧ slotWait (ldSt 5 1 3 2 { trailer := 0x0000000100000010 }) = 1 ∧ slotWait (ldSt 5 1 3 2 { trailer := 0x0000000100000020 }) = 2
    ∧ fld (ldSt 5 1 3 2 { trailer := 0x0000000100000010 }).ld.trailer 47 32 ≠ 0
    ∧ slotWait { ldSt 5 4 3 2 { trailer := 0x40 } with lg := { opts := some 8 } } = 3
    ∧ slotByte (ldSt 4 0 1 1 { slot := 3, trailer := 0x80000000 }) / 64 = 2 := by decide
theorem wit_loadStarts_pll : ldPlls (ldSt 4 1 2 2 { body := [0x3000000000000002, 0, 0, 0xF000000000000000] }) = [] := by decide

/-! ### Darners and recoveries -/

/-- Panel 8 in a STATE with a word of PNL_STAT beside it. -/
abbrev pnlSt (st : Nat) (w : Word) (x : Panel) : State :=
  { panels := tset {} [] 8 { x with stat := mkWord [(63, 60, st)] ||| w }, darners := [(1, { stat := 0x2000000000000000 })] }
theorem wit_darnerScans : Checks (pnlSt 1 0 {}) 8 37 5 ∧ Checks (pnlSt 0 0 {}) 8 37 5 ∧ Checks (pnlSt 5 0 {}) 8 150 0
    ∧ flipCount 3 = 2 ∧ flipCount 4 = 1 ∧ panelState (pnlSt 1 0 {}) 8 = 1 ∧ modeCode (pnlSt 1 0 {}) ≠ 1
    ∧ bitOf (panelOf (pnlSt 1 (setBit 0 59 true) {}) 8).stat 59 = true ∧ bitOf (panelOf (pnlSt 1 0 {}) 8).stat 59 = false
    ∧ bitOf (darnerOf {} 1).ctl 63 = true ∧ fld (darnerOf (pnlSt 1 0 {}) 1).stat 63 60 = 2
    ∧ bitOf (darnerOf { darners := [(1, { ctl := 0 })] } 1).ctl 63 = false ∧ scanned (pnlSt 2 0 {}) 8 = false
    ∧ twf [] ([(8 * 2576, [1])] : Tbl (List Word)) = true ∧ 8 * 2576 / 2576 = 8 ∧ popc 5 = 2
    ∧ (panelOf (pnlSt 6 0 { drained := true, ctl := 1 }) 8).ctl &&& fldMask 1 0 = (panelOf (pnlSt 6 0 { drained := true, ctl := 1 }) 8).ctl := by decide

/-! ### The legacy window -/

/-- Compatibility mode with the legacy TAP of MK2140-C, a load in STATE st from the pins, LG_INIT_N at a level. -/
abbrev lgSt (st init : Nat) (l : Legacy) : State :=
  { ldSt st 4 0 2 { area := 1, checked := true } with
    rst := { state := mkWord [(58, 56, 1), (55, 52, 10), (51, 51, 1)] }, lg := { l with stat := mkWord [(5, 5, init)] } }
theorem wit_legacyWindow : modeCode (lgSt 0 0 {}) = 1 ∧ ldState (lgSt 0 0 {}) = 0 ∧ lgTap (lgSt 1 1 {}) = true ∧ lgTap {} = false ∧ modeCode {} ≠ 1
    ∧ MayTake (lgSt 1 1 {}) 260 ∧ lgOpen (lgSt 0 1 {}) = false ∧ lgIdOk (idAnswer (lgSt 1 1 {})) (beNat [0x32, 0x14, 0x0C, 0x0D]) = true
    ∧ lgIdOk (idAnswer (lgSt 1 1 {})) (beNat [0x42, 0x14, 0x0C, 0x0D]) = false ∧ lgOptOk (beNat [0, 0, 0x0E, 0x40]) = true
    ∧ lgOptOk (beNat [0, 0, 0x1E, 0x40]) = true ∧ nbit (beNat [0, 0, 0x1E, 0x40]) 12 = true ∧ nbit (beNat [0, 0, 0x0E, 0x40]) 12 = false
    ∧ legacySlot (lgSt 1 1 {}) = none ∧ lgAddrOk (beNat [0x20, 0]) = true ∧ lgEnc { opts := some 0xE40 } = false
    ∧ secState (lgSt 1 1 {}) = 0 ∧ secLock (lgSt 1 1 {}) = false := by decide
/-- The worked example of chapter 13: the banks of both domains on a -3 part and on a -1 part (R453). -/
theorem test_legacy_envelope :
    let a : Config.LgDomain := { khz := 125000, ports := 300, foreign := [], mems := 180, mults := 64, pll := true }
    let b : Config.LgDomain := { khz := 62500, ports := 40, foreign := [], mems := 40, mults := 0, pll := true }
    lgBanks 1000000 a = 50 ∧ lgBanks 1000000 b = 3 ∧ lgBanks 800000 a = 75 ∧ lgBanks 800000 b = 4
    ∧ ([a, b].map lgRclks).sum = 5 ∧ lgRefusal 800000 32 { lines := [1], margin := 256, marginClocks := false, domains := [a, b], clamp := false } = 0 := by decide
theorem crc16_zeros (n : Nat) : crc16 (List.replicate n 0) = 0 := by
  unfold crc16
  induction n with
  | zero => rfl
  | succ n ih => rw [List.replicate_succ, List.foldl_cons, show crc16Byte 0 0 = 0 by decide]; exact ih
theorem wit_legacyWindow_crc : crc16 (List.replicate 256 0) = beNat [0, 0] ∧ beNat [0, 1] ≠ crc16 (List.replicate 256 0) := by
  rw [crc16_zeros]; decide
theorem wit_legacyWindow_sealed : secState { lgSt 1 1 {} with sec := { state := mkWord [(63, 62, 2)] } } = 2
    ∧ lgOpen { lgSt 1 1 {} with sec := { state := mkWord [(63, 62, 2)] } } = true := by decide

/-! ### Clocks and power -/

/-- PLL 0 of F0 with a CLK_PLLCFG and a CLK_PLLSTAT, and the reference codes that are valid. -/
abbrev pllSt (cfg stat : Word) (refs : List Nat) : State := { clk := { refs := refs, plls := tset {} [] 0 { cfg := cfg, stat := stat } } }
abbrev cfgFb : Word := mkWord [(63, 63, 1), (61, 60, 3), (59, 55, 1), (54, 50, 2)]
theorem wit_clockSources_refs : ([] : List Nat).contains (refKey 0 1) = false ∧ (pllSt cfgFb 0x4000000000000000 [1, 2]).clk.refs.contains (refKey 0 1) = true
    ∧ 0 ∈ pllsOf 1 0 ∧ pllEn (pllOf (pllSt cfgFb 0x4000000000000000 [1, 2]) 0) = true ∧ pllLocked (pllOf (pllSt cfgFb 0x4000000000000000 [1, 2]) 0) = true
    ∧ pllUses (pllOf (pllSt cfgFb 0x4000000000000000 [1, 2]) 0) = 1 ∧ refOk (pllSt cfgFb 0x4000000000000000 [1, 2]) 0 (pllOther (pllOf (pllSt cfgFb 0x4000000000000000 [1, 2]) 0)) = true
    ∧ pllOther (pllOf (pllSt cfgFb 0x4000000000000000 [1, 2]) 0) ≠ 1 ∧ bitOf (pllOf (pllSt 0x8000000000000000 0x4000000000000000 [0]) 0).cfg 60 = false
    ∧ pllOn1 (pllOf (pllSt cfgFb 0x5000000000000000 [2]) 0) = true ∧ pllRef0 (pllOf (pllSt cfgFb 0x5000000000000000 [2]) 0) = 1
    ∧ pllCoasting (pllOf (pllSt cfgFb 0x2000000000000000 [2]) 0) = true ∧ bitOf (pllOf (pllSt cfgFb 0x2000000000000000 [2]) 0).cfg 61 = true
    ∧ refOk (pllSt cfgFb 0 [1]) 0 1 = true ∧ refOk (pllSt cfgFb 0 [2]) 0 1 = false ∧ refOk (pllSt cfgFb 0 [2]) 0 2 = true
    ∧ (domOf (pllSt cfgFb 0 [2]) 0x480).cur ≠ 4 := by decide
/-- CLKOUT0 follows the always-on clock while SRC asks for REFCLK1. -/
abbrev outSt (refs : List Nat) : State := { clk := { refs := refs, out0 := 0x8000008900000000 } }
theorem wit_clockSources_clkout : clkoutSel (outSt []) 0 ≠ fld (clkoutGet (outSt []) 0) 39 32 ∧ clkoutRuns (outSt []) 0x89 = false
    ∧ clkoutRuns (outSt [1]) (clkoutSel (outSt [1]) 0) = true ∧ clkoutRuns (outSt [1]) (fld (clkoutGet (outSt [1]) 0) 39 32) = true
    ∧ clkoutSel {} 1 = fld (clkoutGet {} 1) 39 32 ∧ recoveredOk {} 0 0x10 = false ∧ recoveredOk {} 0 3 = true := by decide
theorem wit_clockSources_fuse : bitOf (fuseWord { sec := { fuses := [(0, 0x10)], commit := [(0, true)] } } 0) 4 = true := by decide
/-- Panel 2 runs with every regional clock enabled. -/
abbrev forceSt (st : Nat) (force : Word) : State :=
  { panels := tset {} [] 2 { stat := mkWord [(63, 60, st)] }, frames := [(frameKey 2 144 0, List.replicate 16 0x0000420000000000)], clk := { force := force } }
theorem wit_clockSources_force : panelState (forceSt 1 0) (fld 0x8000000000020301 20 16) = 1
    ∧ bitOf (rclkCfg (forceSt 1 0) (16 * fld 0x8000000000020301 20 16 + fld 0x8000000000020301 11 8)) 41 = true
    ∧ panelState (forceSt 2 0) (fld 0x8000000000020301 20 16) ≠ 1 ∧ bitOf (forceSt 1 0x2000000000000000).clk.force 61 = true
    ∧ bitOf (rclkCfg { forceSt 1 0 with frames := [(frameKey 2 144 0, List.replicate 16 0x0000430000000000)] } 35) 40 = true
    ∧ (rclkGet { forceSt 1 0 with rclks := [(35, { src := 3, pend := some 1 })] } 35).pend ≠ none ∧ bitOf (rclkCfg (forceSt 1 0) 35) 41 = true
    ∧ rclkFed (forceSt 1 0) 35 = false ∧ rclkFed { forceSt 1 0 with clk := { plls := [(0, { cfg := 2 ^ 63, odiv := 1, stat := 2 ^ 62 })] } } 35 = true := by decide +kernel

/-- Die 0's sequencer in a step, with PWR_OPP0, after the main load. -/
abbrev oppSt (x : Opp) : State := { ld := { stat := 0x0200000000000000 }, pwr := { opps := tset {} [] 0 x } }
theorem wit_powerSteps_points : AtTarget (oppSt { step := 3, goal := 7, reg := 0x8000000000700707 }) 0 7
    ∧ oppVCUR (oppOf (oppSt { step := 3, goal := 7, reg := 0x8000000000700707 }) 0) = 7
    ∧ AtTarget (oppSt { step := 6, goal := 2, gov := some 2, reg := 0x8000000000720707 }) 0 2
    ∧ oppCUR (oppOf (oppSt { step := 6, goal := 2, gov := some 2, reg := 0x8000000000720707 }) 0) = 2
    ∧ bitOf (0x80000A0A32013210 : Word) 63 = true ∧ 4 < oppVCUR (oppOf (oppSt { step := 4, goal := 4, reg := 0x8000000000770707 }) 0)
    ∧ oppFrozen { oppSt { step := 1 } with ld := { stat := 0x3200000000000000 } } = true ∧ oppFrozen (oppSt { step := 1 }) = false := by decide
theorem wit_powerSteps_votes : domValid (fld 0x0000020000000002 42 32) = true ∧ fld 0x0000020000000002 15 1 * 2 ≠ 0 ∧ voteAllowed 0 0x0000020000000002 = true
    ∧ fld 0x0000020000000002 42 32 < 0x440 ∧ (domOf { pwr := { doms := [(0x200, { cur := 3 })] } } (fld 0x0000020000000002 42 32)).cur = 3
    ∧ domValid (fld 0x000007FF00000002 42 32) = false ∧ voteAllowed 0x2200 0x0000020000000002 = false := by decide
theorem wit_powerSteps_drop : MayDrop { banks := [0, 1, 2, 3, 4, 5, 6, 7].map (fun k => (k, { pwr := 2 })), pwr := { doms := [(0x200, { depth := 2 })] } } 0x200
    ∧ dropTo { pwr := { doms := [(0x200, { depth := 2 })] } } 0x200 0 = 3 ∧ MayDrop {} 0x443 ∧ dropTo { pwr := { doms := [(0x443, { depth := 0 })] } } 0x443 0 = 1
    ∧ hwVote {} 0x200 = true ∧ hwVote {} 0x443 = false := by decide

/-! ### Resets and bring-up -/

/-- Start-up stands at a stage, outside any episode. -/
abbrev atStage (n : Nat) : State := { rst := { state := mkWord [(63, 59, n)] } }
abbrev rstWord (act : Nat) : Word := mkWord [(63, 63, 1), (62, 60, act)]
theorem wit_resetSources : hubGrant (atStage 21) 1 = true ∧ hubGrant { atStage 21 with dbg := { ctl := 0x8000000000000000 } } 0x10 = true ∧ bitOf (rstWord 3) 63 = true ∧ fld (rstWord 3) 62 60 = 3 ∧ fld (rstWord 4) 62 60 = 4
    ∧ stage (atStage 21) < 22 ∧ (hubRecent (atStage 21)).length < 3 ∧ HubQuiet (atStage 21)
    ∧ 3 ≤ (hubRecent { atStage 21 with now := 9, rst := { (atStage 21).rst with hubTimes := [1, 2, 3] } }).length
    ∧ ldState (atStage 21) = 0 ∧ (atStage 21).ld.recs = []
    ∧ hubGrant { sec := { state := 0x8000000000000000 } } 0x1000 = false := by decide
theorem wit_resetSources_pin (b : Bool) :
    let s : State := { sec := { fuses := if b then [(0, 0x2000)] else [], commit := if b then [(0, true)] else [] }, rst := { driving := false, pinHigh := true } }
    bitOf (fuseWord s 0) 13 = b ∧ s.rst.driving = false ∧ s.rst.pinHigh = true := by cases b <;> decide
theorem wit_resetSources_unit : fld (rstWord 1) 18 16 = 0 ∧ fld (rstWord 1) 11 0 < 3840 ∧ 4 ≤ fld (rstWord 1 ||| 0x40000) 18 16
    ∧ fld (rstWord 2) 11 0 < 32 ∧ 384 ≤ fld (rstWord 1 ||| 0x10180) 11 0 ∧ 8 ≤ fld (rstWord 1 ||| 0x20008) 11 0
    ∧ 32 ≤ fld (rstWord 1 ||| 0x30020) 11 0 ∧ 3840 ≤ fld (rstWord 1 ||| 0xF00) 11 0 := by decide

/-- An episode of reach n whose sources are gone. -/
abbrev overSt (n : Nat) : Rst :=
  { active := true, asserted := [], covered := [(9, n)], eff := n, stretched := true, driving := false, pinHigh := true, seen := 256, hubLoading := false }
theorem wit_resetEnds : (∀ a ∈ (overSt 5).asserted, a.1 = 6) ∧ (9, 5) ∈ (overSt 5).covered ∧ (∀ a ∈ (overSt 5).covered, a.2 ≤ 5 ∧ (a.2 = 5 → 9 ≤ a.1))
    ∧ (overSt 5).narrow = [] ∧ ({ rst := overSt 5 } : State).sec.zscope = 0 ∧ panelState { panels := [(3, { stat := 0x1000000000000000 })] } 3 = 1
    ∧ ({ rst := { overSt 5 with asserted := [(5, 5)] } } : State).rst.asserted ≠ [] := by decide

theorem wit_bringUp : (State.reset).rst.active = true ∧ (State.reset).rst.eff = 6 ∧ stageOpen (atStage 2) = true ∧ stage (atStage 2) < 3
    ∧ bitOf (tget 0 (atStage 2).sec.bbram 5) 1 = false ∧ bitOf (atStage 2).rst.state 43 = false ∧ AtStage (atStage 4) 4 ∧ AtStage (atStage 5) 5
    ∧ AtStage { atStage 6 with clk := { ref := 0x1000000000000000 } } 6 ∧ bitOf (0x1000000000000000 : Word) 60 = true ∧ fld 0x1000000000000000 50 48 ≠ 7
    ∧ AtStage (atStage 8) 8 ∧ (atStage 8).st.slice = none ∧ modeCode (atStage 8) = 0 ∧ coldSource (atStage 8) = some 0
    ∧ coldSource { rst := { state := mkWord [(63, 59, 8), (51, 51, 1)] } } = none ∧ modeCode { rst := { state := mkWord [(63, 59, 8), (51, 51, 1)] } } = 0
    ∧ (State.reset).rst.hubLoading = true
    ∧ (let x : State := { atStage 2 with sec := { bbram := [(5, 1)] } }
       stage x < 3 ∧ stageOpen x = true ∧ bitOf (tget 0 x.sec.bbram 5) 1 = false ∧ bitOf x.sec.bbr 56 = false ∧ bitOf (tget 0 x.sec.bbram 5) 0 = true) := by decide
theorem wit_bringUp_shut : bitOf (rstWord 7 ||| 0x0800000000000000) 59 = true ∧ stage (atStage 22) = 22 ∧ stage (atStage 23) = 23
    ∧ (∃ c : Word, fld ({ atStage 21 with st := { ctl := c } } : State).st.ctl 47 40 ≠ 0 ∧ sliceRuns { atStage 21 with st := { ctl := c } } 0 = true) := by
  refine ⟨by decide, by decide, by decide, 0x0000010000000001, by decide, by decide⟩

/-! ### Security -/

/-- A state of the fuses and SEC_STATE. -/
abbrev secSt (x : Sec) : State := { sec := x }
theorem wit_fusesAndSlots_program : secWriter (secSt {}) 1 = true ∧ ¬ secWriter (secSt { state := 0x4000000000000000 }) 1 = true
    ∧ (secSt { vfuse := false }).sec.vfuse = false ∧ tget false (secSt { commit := [(0, true)] }).sec.commit (fld 0 7 0) = true
    ∧ 20 < fld 0x40 7 0 ∧ FuseForbidden (secSt {}) 1 ∧ FuseForbidden (secSt {}) 2 ∧ FuseForbidden (secSt { state := 0x8000000000000000 }) 0
    ∧ secWriter (secSt { state := 0x8000000000000000 }) 3 = true ∧ ¬ FuseForbidden (secSt {}) 3 ∧ secLock (secSt { state := 0x0800000000000000 }) = true
    ∧ ¬ FuseForbidden (secSt { state := 0x0800000000000000 }) 3 ∧ ¬ FuseForbidden (secSt { state := 0x0100000000000000 }) 1
    ∧ ¬ FuseForbidden (secSt { state := 0x0200000000000000, commit := [(1, true)] }) 2 := by decide
theorem wit_fusesAndSlots_done : (secSt { blow := some (3, 7) }).sec.blow = some (3, 7)
    ∧ RepairFree { sec := { blow := some (32, 7), commit := [(32, true)] }, st := { todo := [5] } } 33 := by decide
theorem wit_fusesAndSlots_slots : hubGrant (secSt {}) 3 = true ∧ secState (secSt {}) ≠ 2 ∧ secLock (secSt {}) = false ∧ (secSt {}).sec.tamperLow = false
    ∧ hubGrant (secSt {}) 0x1000 = false ∧ (secSt { tamperLow := true }).sec.tamperLow = true := by decide
theorem wit_alarms : bitOf (fuseWord (secSt { fuses := [(0, 0x8000)], commit := [(0, true)] }) 0) 15 = true ∧ bitOf (fuseWord (secSt {}) 0) 15 = false
    ∧ bitOf (secSt { state := 0x0008000000000000 }).sec.state 51 = true ∧ bitOf (secSt {}).sec.state 51 = false ∧ nbit (secSt { zscope := 1 }).sec.zscope 0 = true
    ∧ nbit (secSt { zscope := 2 }).sec.zscope 0 = false
    ∧ (let x : State := { secSt { fuses := [(0, 0x8000)], commit := [(0, true)] } with rst := State.reset.rst }
       bitOf (fuseWord x 0) 15 = true ∧ x.rst.active = true ∧ x.rst.eff = 6) := by decide

/-! ### The debug port -/

/-- The debug port at an access level, in a security state. -/
abbrev dbgSt (lvl sec : Nat) : State := { dbg := { ctl := mkWord [(63, 62, lvl)] }, sec := { state := mkWord [(63, 62, sec)] } }
theorem wit_debugPort : nativeTap (dbgSt 2 0) = true ∧ nativeTap { rst := { state := mkWord [(55, 52, 7)] } } = false ∧ bscan (dbgSt 0 0) = false
    ∧ bscan { dbg := { ir := 5 } } = true ∧ dbgLevel (dbgSt 2 0) = 2 ∧ secState (dbgSt 2 0) ≠ 2 ∧ dbgLevel (dbgSt 1 2) = 1 ∧ secState (dbgSt 1 2) = 2
    ∧ ldState (dbgSt 0 0) ≠ 1 ∧ secLock { sec := { state := 0x0800000000000000 } } = true ∧ secLock (dbgSt 0 1) = false
    ∧ fld (mkWord [(63, 63, 1), (62, 60, 5)]) 62 60 = 5 ∧ bitOf (mkWord [(63, 63, 1), (62, 60, 5)]) 63 = true := by decide
theorem wit_debugPort_cfgin : let s : State := { ld := { stat := 0x1000000000000000, src := 1 } }
    ldState s = 1 ∧ s.ld.src = 1 ∧ s.ld.waitMem = false ∧ s.ld.recs = []
    ∧ s.dbg.cfgBits ++ [true, false, false, false, false, false, false, true, true] = [(0x81 : Byte)].flatMap (fun b => (List.range 8).map b.getLsbD) ++ [true] := by
  decide
theorem wit_debugPort_token (b : List Byte) (h : sha384 ((b.drop 40).take 97) = ownerHash (dbgSt 0 1))
    (h2 : ecdsaOk ((b.drop 40).take 97) (b.take 40) (beNat ((b.drop 144).take 48)) (beNat ((b.drop 192).take 48)) = true) :
    tokenValid (dbgSt 0 1) true b = true := by
  simp [tokenValid, h, h2]

/-- Engine 5 of panel 0 runs; the debug access master has FULL. -/
abbrev vtSt (x : Engine) : State :=
  { panels := [(0, { stat := 0x1000000000000000, sr := true, we := true, out := true })], wraps := [(5, { st := .running })],
    engines := tset {} [] 5 x, dbg := { ctl := 0x8000000000000000 } }
abbrev regDst : Dest := { kind := .reg, place := 86, dom := none }
theorem wit_runControl : DapIdle (vtSt {}) ∧ dbgLevel (vtSt {}) = 2 ∧ ¬ DapIdle { vtSt {} with dbg := { dapBusy := true } } ∧ dbgLevel { dbg := { ctl := 0x4000000000000000 } } = 1
    ∧ regAddr 0x1F002000000 = true ∧ (∃ r, regOf 0x1F002000000 = some r ∧ r.kind.secret = true) ∧ (∃ r, regOf 0x1F003000000 = some r ∧ r.kind = .dbgCtl)
    ∧ noXtOut (vtSt { st := .running }) 5 = true ∧ (eng (vtSt { st := .halted }) 5).st = .halted := by
  refine ⟨by decide, by decide, by decide, by decide, by decide, ⟨_, rfl, by decide⟩, ⟨_, rfl, by decide⟩, rfl, rfl⟩
/-- Engine 5 with a transfer to or from DBG_TX5 and DBG_RX5. -/
abbrev vtX (write : Bool) (x : Engine) : Engine :=
  { x with xfers := [{ write := write, addr := dbgTxAddr 5 + (if write then 0 else 8), laddr := 0, len := 1, cls := 2, early := none }], dm := [(0, { val := 7 })] }
theorem wit_runControl_vt : RegReach (vtSt (vtX true {})) (wordReq (vtSt (vtX true {})) (0x1000 + 5) (dbgTxAddr 5) (some 7) []) regDst
    ∧ RegReach (vtSt (vtX false { rxf := true, rx := 9 })) (wordReq (vtSt (vtX false { rxf := true, rx := 9 })) (0x1000 + 5) (dbgTxAddr 5 + 8) none []) regDst
    ∧ RegReach (vtSt (vtX true { txf := true })) (wordReq (vtSt (vtX true { txf := true })) (0x1000 + 5) (dbgTxAddr 5) (some 7) []) regDst :=
  ⟨by decide +kernel, by decide +kernel, by decide +kernel⟩
theorem wit_runControl_dap : (let u := dapSent (vtSt {}) (aliasOf (dbgTxAddr 5)) 1 0
      RegReach u (wordReq u 0x10 (aliasOf (dbgTxAddr 5)) none []) regDst)
    ∧ (let u := dapSent (vtSt {}) (dbgTxAddr 5 + 8) 2 7
      RegReach u (wordReq u 0x10 (dbgTxAddr 5 + 8) (some 7) []) regDst)
    ∧ RegReach (vtSt {}) (wordReq (vtSt {}) 1 (aliasOf (dbgTxAddr 5)) none []) regDst :=
  ⟨by decide +kernel, by decide +kernel, by decide +kernel⟩
/-- The read of an alias at FULL: its register exists and is reached. -/
theorem wit_runControl_alias : (0x1F800000000 ≤ aliasOf (dbgTxAddr 5) ∧ aliasOf (dbgTxAddr 5) < 0x1FC00000000)
    ∧ regOf (aliasOf (dbgTxAddr 5)) = some { kind := .dbgTx, u := 5 } ∧ blockHas (aliasOf (dbgTxAddr 5)) 5 .dbgRx = true := by decide
theorem wit_runControl_panels : (∃ b ∈ ({ banks := [(0, { resv := [{ req := 0x2003, word := 1 }] })] } : State).banks, ∃ r ∈ b.2.resv, r.req = 0x2000 + 64 * 0 + 3)
    ∧ bitOf (0x4000000000000008 : Word) 62 = true ∧ fld (0x00000000FFFF0000 : Word) 31 16 ≠ 0 := by decide

/-! ### Self-test and repair -/

/-- Slice k runs, with the reset control object. -/
abbrev slSt (k : Nat) (quick urgent : Bool) : State := { st := { slice := some k, quick := quick }, rst := { urgent := urgent } }
theorem wit_selfTest_slices : NextSlice (slSt 3 false false) 4 4 ∧ LastSlice (slSt 11 false false) 12 ∧ NextSlice (slSt 7 false false) 8 8
    ∧ (slSt 3 false false).st.results.length = 8 ∧ (slSt 0 true false).st.quick = true ∧ (slSt 3 false true).rst.urgent = true := by
  refine ⟨by decide +kernel, by decide +kernel, by decide +kernel, by decide, by decide, by decide⟩
theorem wit_selfTest_wires : wireDone {} 2 5 77 = false ∧ freeSpare {} 2 5 = some 0 ∧ wireDone { st := { spares := [(517, [154])] } } 2 5 77 = true
    ∧ (∀ sp, sp < 2 → ∃ x ∈ tget [] ({ st := { spares := [(517, [154, 157])] } } : State).st.spares 517, x % 2 = sp)
    ∧ wireDone { st := { spares := [(517, [154, 157])] } } 2 5 79 = false := by decide
/-- Words one after another from word n on, as a table. -/
def runTbl (n : Nat) : List Word → Tbl Word
  | [] => []
  | w :: ws => (n, w) :: runTbl (n + 1) ws
theorem tget_runTbl_before (ws : List Word) : ∀ n k, k < n → tget 0 (runTbl n ws) k = 0 := by
  induction ws with
  | nil => intro n k _; rfl
  | cons w ws ih =>
    intro n k h
    simp only [runTbl, tget]
    rw [if_neg (by omega)]
    exact ih (n + 1) k (by omega)
theorem tget_runTbl (ws : List Word) : ∀ n i, tget 0 (runTbl n ws) (n + i) = ws.getD i 0 := by
  induction ws with
  | nil => intro n i; rfl
  | cons w ws ih =>
    intro n i
    simp only [runTbl, tget]
    cases i with
    | zero => simp
    | succ i =>
      rw [if_neg (by omega), show n + (i + 1) = n + 1 + i by omega, ih]
      rfl
theorem recCopy_runTbl (ws : List Word) (h : ws.length = 247) (s : State) (hs : s.sec.bbram = runTbl 17 ws) : recCopy s 0 = ws := by
  apply List.ext_getElem
  · simp [recCopy, h]
  · intro i h1 h2
    simp only [recCopy, List.getElem_map, List.getElem_range, hs]
    rw [Nat.mul_zero, Nat.add_zero, tget_runTbl, List.getD_eq_getElem?_getD, List.getElem?_eq_getElem h2]
    rfl
/-- The record of the manual's example: one die-to-die spare and one bank remap, SEQ 1, n words free. -/
def exBody (n : Nat) : List Word := 0x5250000180000200 :: List.replicate 8 0 ++ ([0x44054D0000000000, 0x232100A700000000] ++ List.replicate n 0)
def exCopy (n : Nat) : State := { sec := { bbram := runTbl 17 (exBody n ++ [BitVec.ofNat 64 (recCrc (exBody n))]) } }
theorem exBody_length (n : Nat) : (exBody n).length = n + 11 := by simp [exBody]
theorem recUsed_ex (n : Nat) (h : n = 235) : recUsed (exCopy n) = exBody n ++ [BitVec.ofNat 64 (recCrc (exBody n))] := by
  have ha : recAct (exCopy n) = 0 := by
    unfold recAct exCopy
    rw [tget_runTbl_before _ _ _ (by omega)]
    rfl
  have hl : (exBody n).length = 246 := by rw [exBody_length]; omega
  unfold recUsed
  rw [ha, recCopy_runTbl _ (by rw [List.length_append, hl]; rfl) _ rfl, if_pos (recValid_append _ hl (show fld 0x5250000180000200 63 48 = 0x5250 by decide) (show bitOf 0x5250000180000200 31 = true by decide))]
theorem recEntries_ex (n : Nat) (h : n = 235) : recEntries (recUsed (exCopy n)) = [] ++ 0x44054D0000000000 :: [0x232100A700000000] := by
  rw [recUsed_ex n h]
  have : fld ((exBody n ++ [BitVec.ofNat 64 (recCrc (exBody n))]).headD 0) 15 8 = 2 := show fld 0x5250000180000200 15 8 = 2 by decide
  unfold recEntries
  rw [this]
  rfl
theorem wit_selfTest_record : recEntries (recUsed (exCopy 235)) = [] ++ 0x44054D0000000000 :: [0x232100A700000000] :=
  recEntries_ex 235 rfl
theorem test_wire_entry : wireEntry 2 5 0 77 = 0x44054D0000000000 := by decide

/-! ### Uluat -/

/-- Session 0 through the service port, at a level. -/
abbrev sess0 (lvl : Nat) (rdy : Bool) : Sess := { level := lvl, sid := 5, ready := rdy }
abbrev svcSt (x : Sess) (q : List ObjReq) : State := { svc := { slots := [(0, x)], queue := q } }
/-- The state after a message of the service port has been counted. -/
abbrev heardOf (s : State) : State := { s with svc := { s.svc with received := s.svc.received + 1 } }
abbrev openSt (w : Word) (slots : Tbl Sess) : State := { sec := { state := w }, svc := { slots := slots } }
abbrev msgOf (payload tag : List Byte) : Msg := { sid := 5, tid := 7, sub := 0, index := 0x1003, segd := false, payload := payload, tag := tag }
theorem heard_port (s : State) (bytes : List Byte) (h : carrierUp s .port = true) (n : bytes.length ≤ msgLimit s 0) : Heard s .port bytes (heardOf s) :=
  ⟨h, n, rfl⟩
theorem wit_sessions_open : carrierUp { rst := { hubLoading := true } } .port = false
    ∧ carrierUp (openSt 0 []) .port = true ∧ (msgFull 0 0 0 7 0 0 (0 :: List.replicate 16 0)).length ≤ msgLimit (openSt 0 []) 0
    ∧ (sessOf (heardOf (openSt 0 [])) 0).sid = 0
    ∧ bitOf (openSt 0x0888000000000000 []).sec.state 51 = true ∧ secLock (openSt 0x0888000000000000 []) = true
    ∧ secLock (openSt 0x0088000000000000 []) = false ∧ bitOf (0x0088000000000000 : Word) 55 = true ∧ bitOf (0x0088000000000000 : Word) 54 = false
    ∧ (∀ k, k < 8 → (sessOf (openSt 0 ((List.range 8).map (fun i => (i, { sid := i + 1 })))) k).sid ≠ 0) := by decide
theorem wit_sessions_window : Heard { svc := { host := [(0x2000, [1]), (0x2003, [9, 8, 0, 0])] } } (.window 0x2003) [9, 8]
    { svc := { received := 1, host := [(0x2000, [1])] } } :=
  ⟨by decide, by decide, [(0x2000, [1])], [0, 0], [], rfl, by decide, by decide, rfl⟩
theorem wit_sessions_auth : let s := svcSt (sess0 1 false) []
    carrierUp s .port = true ∧ (msgBytes (msgOf (List.replicate 48 0) []) 1).length ≤ msgLimit s 0 ∧ sessFind (heardOf s) .port 5 = some 0 ∧ (sessOf (heardOf s) 0).ready = false
    ∧ (sessOf (heardOf s) 0).sid ≠ 0 ∧ (authRecent (heardOf s)).length ≠ 15 ∧ sessFind (heardOf s) .port 6 = none := by decide
/-- The bytes a right AUTH carries. -/
theorem wit_sessions_auth_right (k m : List Byte) : (msgOf (hmac k m) []).payload.length = 48 ∧ (msgOf (hmac k m) []).payload = hmac k m :=
  ⟨hmac_length k m, rfl⟩
theorem wit_sessions_slots : (sessOf (svcSt (sess0 1 false) []) 0).ready = false ∧ (sessOf (svcSt (sess0 0 true) []) 0).sid ≠ 0
    ∧ (sessOf (svcSt (sess0 0 true) []) 0).ready = true ∧ (sessOf (svcSt (sess0 0 true) []) 0).streams = false ∧ (sess0 1 true).tagged = true := by decide
/-- A session at level 1 or 2 holds right tags and, of any bytes that are not the tag, wrong ones. -/
theorem wit_sessions_tag (s : State) (m : Msg) (x : Sess) (h : Heard s .port (msgBytes m 7 ++ sessTag x 0 x.cntIn (msgBytes m 7)) (heardOf s))
    (f : sessFind (heardOf s) .port m.sid = some 0) (e : sessOf (heardOf s) 0 = x) (r : x.ready = true) (i : x.sid ≠ 0) :
    ∃ u, InSession s .port m.sid (msgBytes m 7) (sessTag x 0 x.cntIn (msgBytes m 7)) 0 u :=
  ⟨_, heardOf s, h, f, e ▸ r, e ▸ i, .inr (e ▸ rfl), rfl⟩
theorem inSession0 (s : State) (lvl sid : Nat) (msg : List Byte) (h : carrierUp s .port = true) (n : msg.length ≤ msgLimit s 0)
    (f : sessFind (heardOf s) .port (BitVec.ofNat 8 sid) = some 0)
    (r : (sessOf (heardOf s) 0).ready = true ∧ (sessOf (heardOf s) 0).sid ≠ 0 ∧ (sessOf (heardOf s) 0).level = 0 ∧ lvl = 0) :
    InSession s .port (BitVec.ofNat 8 sid) msg [] 0 (sessPut (heardOf s) 0 { sessOf (heardOf s) 0 with last := s.now }) := by
  refine ⟨heardOf s, heard_port s _ h (by simpa using n), f, r.1, r.2.1, .inl r.2.2.1, ?_⟩
  simp [r.2.2.1]
theorem wit_sessions_subscribe : InSession (svcSt (sess0 0 true) []) .port 5 (msgBytes (msgOf [1] []) 6) [] 0
      (sessPut (heardOf (svcSt (sess0 0 true) [])) 0 (sess0 0 true))
    ∧ objFind (svcSt (sess0 0 true) []) 0x1003 0 = .val { code := 5, len := 8, rd := 0, wr := 3 } ∧ objNotifies 0x1003 = true ∧ objNotifies 0x1002 = false
    ∧ objFind (svcSt (sess0 0 true) []) 0x1004 0 = .noObj :=
  ⟨inSession0 (svcSt (sess0 0 true) []) 0 5 _ (by decide) (by decide) (by decide) (by decide), by decide, by decide, by decide, by decide⟩
theorem wit_sessions_busOff : (State.reset).svc.phys = 0 := by decide

abbrev accQ (write : Bool) (index sub : Nat) (data : List Byte) : ObjReq := { slot := 0, tid := 7, write := write, index := index, sub := sub, data := data }
theorem wit_access_takes (x : Sess) (q : ObjReq) (h : x.sid ≠ 0) (k : q.slot = 0) : BridgeTakes (svcSt x [q]) q (svcSt x []) := by
  refine ⟨[], rfl, rfl, rfl, ?_, rfl⟩
  simpa [sessOf, tget, k] using h
theorem wit_access_queue : sessOut (svcSt (sess0 0 true) []) 0 < 4 ∧ 4 ≤ sessOut (svcSt (sess0 0 true) (List.replicate 4 (accQ false 0x1003 0 []))) 0
    ∧ InSession (svcSt (sess0 0 true) []) .port 5 (msgBytes (msgOf [] []) 2) [] 0 (sessPut (heardOf (svcSt (sess0 0 true) [])) 0 (sess0 0 true)) :=
  ⟨by decide, by decide, inSession0 (svcSt (sess0 0 true) []) 0 5 _ (by decide) (by decide) (by decide) (by decide)⟩
theorem wit_access_checks : objFind {} 0x1004 0 = .noObj ∧ objFind {} 0x1002 1 = .noSub ∧ objFind {} 0x2001 0 = .val { code := 5, len := 8, rd := 1, wr := 3 }
    ∧ objFind {} 0x7002 0 = .val { code := 5, len := 8, rd := 1, wr := 2 } ∧ objFind {} 0x1001 0 = .val { code := 5, len := 8, rd := 3, wr := 1 }
    ∧ objWrLevel 0x7002 [1] { code := 5, len := 8, rd := 1, wr := 2 } ≤ (sess0 2 true).level ∧ (sess0 1 true).level < 2
    ∧ bitOf (0xC000000000000000 : Word) 63 = true ∧ fld (0xC000000000000000 : Word) 62 60 = 4 ∧ stage {} < 22 ∧ ldState {} = 0 := by decide
/-- Panel 0 is up, port 3 of it may publish, and one publication serves index 0xA010 from it. -/
abbrev pubEx : Word := mkWord [(63, 63, 1), (59, 48, 0x10), (39, 36, 5), (15, 11, 0), (10, 5, 3)]
theorem wit_access_published : let s : State := { svc := { slots := [(0, sess0 0 true)], queue := [accQ false 0xA010 2 []], pubs := [(4, pubEx)] } }
    pubOf s 0xA010 = some pubEx ∧ fld pubEx 35 34 ≤ (sessOf s 0).level ∧ BridgeTakes s (accQ false 0xA010 2 []) { s with svc := { s.svc with queue := [] } } :=
  ⟨by decide, by decide, [], rfl, rfl, rfl, by decide, rfl⟩
abbrev segEx (write : Bool) : Seg := { tid := 7, index := 0xA010, sub := 0, write := write, total := 60, data := [1], seq := if write then 7 else 2, acked := 0 }
theorem wit_access_segments : let s := svcSt { sess0 0 true with segs := [segEx true] } []
    let r := svcSt { sess0 0 true with segs := [segEx false] } []
    InSession s .port 5 (msgShort 4 0 5 7 7 [1]) [] 0 (sessPut (heardOf s) 0 { sess0 0 true with segs := [segEx true] })
    ∧ InSession r .port 5 (msgShort 5 0 5 7 2 []) [] 0 (sessPut (heardOf r) 0 { sess0 0 true with segs := [segEx false] })
    ∧ ((segEx true).seq + 1) % 8 = 0 ∧ ({ segEx true with seq := 6 }.seq + 1) % 8 ≠ 0 ∧ ({ segEx true with total := 2 }.data ++ [1]).length = 2 ∧ ((segEx true).data ++ [1]).length ≠ (segEx true).total
    ∧ (segEx false).total ≤ (segEx false).seq * segRoom r (sess0 0 true) ∧ segRoom r (sess0 0 true) ≠ 0 :=
  ⟨inSession0 (svcSt { sess0 0 true with segs := [segEx true] } []) 0 5 _ (by decide) (by decide) (by decide) (by decide),
   inSession0 (svcSt { sess0 0 true with segs := [segEx false] } []) 0 5 _ (by decide) (by decide) (by decide) (by decide),
   by decide, by decide, by decide, by decide, by decide, by decide⟩
theorem wit_access_stream : let s : State := { svc := { slots := [(0, sess0 2 true)] }, ld := { stat := 0x1000000000000000, src := 3 } }
    ldState s = 1 ∧ s.ld.src = 3 ∧ segBusy s 0x2002 0 = false ∧ leNat [1, 0, 0, 0] ≠ 0 ∧ 2 ≤ (sessOf s 0).level := by decide
theorem wit_access_bridge : bridgeOk 0 = false ∧ bridgeOk 0x1F000000000 = true ∧ (∃ r, regOf 0x1F000000000 = some r ∧ r.kind ≠ .dbgRx ∧ r.kind ≠ .dbgTx) :=
  ⟨by decide, by decide, _, rfl, by decide, by decide⟩
theorem wit_access_publish : let s : State := { svc := { slots := [(0, { sess0 1 true with path := 2, init := 0x2003 })] }
                                                panels := [(0, { stat := 0x1000000000000000 })], frames := [(frameKey 0 145 0, List.replicate 70 2)] }
    pubRefused s 4 pubEx = false ∧ pubRefused s 4 (setFld pubEx 39 36 0) = true ∧ (0x2003 - 0x2000) / 64 = fld pubEx 15 11 ∧ bitOf pubEx 63 = true := by decide

/-! ### The block as a whole -/

theorem wit_stepTakesFront : (State.reset).pending = [] ∧ (State.reset).rst.hubLoading = true ∧ (∀ k, k < 8 → (sessOf {} k).notes = []) := by decide
theorem wit_securityState : stage { rst := { state := 0x1000000000000000 } } < 3 ∧ stageOpen { rst := { state := 0x1000000000000000 } } = true
    ∧ fusedState { sec := { fuses := [(1, 1)], commit := [(1, true)] } } = 1 ∧ fusedState { sec := { fuses := [(1, 1)] } } = 0
    ∧ fusedState { sec := { fuses := [(1, 1), (2, 1)], commit := [(1, true), (2, true)] } } = 2 ∧ (true || false) = true := by decide
abbrev hubSt : State := { now := 900000, rst := { hubTimes := [100, 200, 800000] } }
theorem wit_fourthHub : hubSt.rst.active = false ∧ hubSt.rst.asserted = [] ∧ 3 ≤ (hubRecent hubSt).length ∧ hubSt.sec.blow = none ∧ hubSt.sec.zscope = 0
    ∧ hubGrant hubSt 3 = true ∧ (9 : Fin 16).val = rstSrc 3 ∧ stage hubSt ≠ 23 ∧ fld (0xB000000000000000 : Word) 62 60 = 3
    ∧ ¬ 3 ≤ (hubRecent { hubSt with now := 1000100 }).length := by decide

/-! ### WellFormed: for each check an ill-formed command that it refuses, and a well-formed one it takes -/

theorem test_wf_nativeFrameSend : Instr.wf (.nativeFrameSend 0 0 (List.replicate 33 0)) = false ∧ Instr.wf (.nativeFrameSend 0 0 (List.replicate 32 0)) = true := by decide
theorem test_wf_nativeFrameSend_long (p : List Byte) (h : p.length = 544) : Instr.wf (.nativeFrameSend 0 0 p) = false := by simp [Instr.wf, payloadOk, h]
theorem test_wf_nativeFrameReceive : Instr.wf (.nativeFrameReceive 0 { ftype := 0, units := 0, seq := 0, payload := [], tag := 0 }) = false ∧ Instr.wf (.nativeFrameReceive 0 { ftype := 0, units := 2, seq := 0, payload := List.replicate 64 0, tag := 0 }) = true := by decide
theorem test_wf_streamTx : Instr.wf (.streamTx 0 0 [1] 0 false) = false ∧ Instr.wf (.streamTx 0 0 [1, 2, 3, 4] 0 false) = true := by decide
theorem test_wf_streamRx : Instr.wf (.streamRx 0 0 [1, 2, 3, 4, 5] 0 false) = false ∧ Instr.wf (.streamRx 0 0 [1, 2, 3, 4] 0 false) = true := by decide
theorem test_wf_ctlCap : Instr.wf (.ctlCap 0 0 0 [1]) = false ∧ Instr.wf (.ctlCap 0 0 0 (List.replicate 14 0)) = true := by decide
theorem test_wf_dmaTx : Instr.wf (.dmaTx 0 [1] [] false) = false ∧ Instr.wf (.dmaTx 0 [1, 2] [] false) = true := by decide
theorem test_wf_dmaRx : Instr.wf (.dmaRx 0 [1, 2, 3] [] false) = false ∧ Instr.wf (.dmaRx 0 [] [] false) = false ∧ Instr.wf (.dmaRx 0 [1, 2, 3, 4] [] false) = true ∧ Instr.wf (.dmaRx 0 [1, 2] [] false) = true := by decide
theorem test_wf_statsWindow : Instr.wf (.statsWindow 0 32) = false ∧ Instr.wf (.statsWindow 0 31) = true := by decide
theorem test_wf_statsClear : Instr.wf (.statsClear 0 32) = false ∧ Instr.wf (.statsClear 0 0) = true := by decide
theorem test_wf_linkCrcError : Instr.wf (.linkCrcError 0 0 16) = false ∧ Instr.wf (.linkCrcError 0 0 15) = true := by decide
theorem test_wf_resetSourceAssert_code : Instr.wf (.resetSourceAssert 0 4) = false ∧ Instr.wf (.resetSourceAssert 12 6) = true := by decide
theorem test_wf_resetSourceAssert_high : Instr.wf (.resetSourceAssert 13 4) = false := by decide
theorem test_wf_resetSourceAssert_reach : Instr.wf (.resetSourceAssert 9 7) = false ∧ Instr.wf (.resetSourceAssert 1 1) = true := by decide
theorem test_wf_resetSourceAssert_none : Instr.wf (.resetSourceAssert 9 0) = false := by decide
theorem test_wf_resetSourceRelease : Instr.wf (.resetSourceRelease 13) = false ∧ Instr.wf (.resetSourceRelease 12) = true := by decide
theorem test_wf_resetSourceRelease_zero : Instr.wf (.resetSourceRelease 0) = false := by decide
theorem test_wf_darnerFrameCheck_word : Instr.wf (.darnerFrameCheck 0 0 0 [{ word := 369, flip := 1 }] false) = false ∧ Instr.wf (.darnerFrameCheck 0 0 0 [{ word := 368, flip := 1 }] false) = true := by decide
theorem test_wf_darnerFrameCheck_flip : Instr.wf (.darnerFrameCheck 0 0 0 [{ word := 5, flip := 0 }] false) = false := by decide
theorem test_wf_lgDevice : Instr.wf (.lgDevice [1, 2, 3]) = false ∧ Instr.wf (.lgDevice [1, 2, 3, 4]) = true := by decide
theorem test_wf_lgOptions : Instr.wf (.lgOptions []) = false ∧ Instr.wf (.lgOptions [1, 2, 3, 4]) = true := by decide
theorem test_wf_lgIv : Instr.wf (.lgIv (List.replicate 15 0)) = false ∧ Instr.wf (.lgIv (List.replicate 16 0)) = true := by decide
theorem test_wf_lgFrames : Instr.wf (.lgFrames [1]) = false ∧ Instr.wf (.lgFrames [1, 2]) = true := by decide
theorem test_wf_tapDbgtoken (p q : List Byte) (h : p.length = 239) (k : q.length = 240) : Instr.wf (.tapDbgtoken p) = false ∧ Instr.wf (.tapDbgtoken q) = true := by
  simp [Instr.wf, h, k]
theorem test_wf_patrolScrub : Instr.wf (.patrolScrub 0 []) = false ∧ Instr.wf (.patrolScrub 0 (List.replicate 8 [])) = true := by decide
theorem test_wf_bootDirectoryRead : Instr.wf (.bootDirectoryRead (List.replicate 63 0)) = false ∧ Instr.wf (.bootDirectoryRead (List.replicate 64 0)) = true := by decide
theorem test_wf_uluatOpen : Instr.wf (.uluatOpen .port 1 0 (List.replicate 15 0)) = false ∧ Instr.wf (.uluatOpen .port 1 0 (List.replicate 16 0)) = true := by decide

/-! ### Worked values of the manual -/

/-- The fronthaul card's addresses: bank 800 and engine 968 of P8, and its port 3. -/
theorem test_fronthaul_bank : (addrDest {} 0x010003200000).map (fun d => (d.kind, d.dom)) = some (.bank, some (0x200 + 100)) := by decide
theorem test_fronthaul_engine : (addrDest {} 0x011001E40000).map (fun d => (d.kind, d.dom)) = some (.engine, some (engGroup 968)) := by decide
theorem test_fronthaul_port : initUnit 0x2203 = some (unitKey (.port 8 3)) ∧ initUnit 0x13C8 = some (unitKey (.engine 968)) := by decide

/-- HEAD's examples for CI16. -/
theorem test_headroom : headroom 0x7FFF = 0 ∧ headroom 0 = 15 ∧ headroom 0xFFFF = 15 := by decide
end Sys2Proof.Tests
end

