-- ==== Sys2Proof/Proofs/RegionalClocks.lean ====
section
/-! PROOF. One regional clock's multiplexer and gate (R91, R94, R97): each command puts at most that clock's own entry. -/

namespace Sys2Proof.Machine
open Sys2Proof Sys2Proof.Safety

/-! ### The commands and the frame of a put -/

theorem exec_clockSwitchStart (r : RclkId) (n : Fin 4) (s : State) :
    exec (.clockSwitchStart r n) s = execClockSwitchStart r n s := rfl

theorem exec_clockSwitchDone (r : RclkId) (s : State) : exec (.clockSwitchDone r) s = execClockSwitchDone r s := rfl

theorem exec_clockGate (r : RclkId) (s : State) : exec (.clockGate r) s = execClockGate r s := rfl

theorem exec_clockUngate (r : RclkId) (s : State) : exec (.clockUngate r) s = execClockUngate r s := rfl

theorem rclkOnly_refl (s : State) (r : Nat) : RclkOnly s s r := ⟨rfl, fun _ _ => rfl⟩

theorem rclkOnly_rclkPut (s : State) (r : Nat) (x : Rclk) : RclkOnly s (rclkPut s r x) r :=
  ⟨rfl, fun k hk => by rw [rclkGet_rclkPut, if_neg hk]⟩

/-! ### Switching (R91, R94, R99) -/

/-- The select a switch goes to: RSEL0 is bit 0 and RSEL1 bit 1, each 0 where its tap is unused (R92). -/
theorem rselValue_fin4 (s : State) (r : Nat) (n : Fin 4) : rselValue s r n =
    (if tapUsed s r 2 = true then n.val % 2 else 0) + 2 * (if tapUsed s r 3 = true then n.val / 2 else 0) := by
  have hn : n.val / 2 % 2 = n.val / 2 := Nat.mod_eq_of_lt (by omega)
  rw [rselValue, hn]
  split <;> split <;> omega

/-- What a new select value makes of a regional clock: a switch under way queues it, otherwise one that differs from the
input in use starts a switch (R94). -/
def rclkSelected (x : Rclk) (v : Nat) : Rclk :=
  if x.pend ≠ none then { x with queued := some v } else if x.src = v then x else { x with pend := some v }

/-- R91's preconditions met, a switch command selects the value its taps give. -/
theorem execClockSwitchStart_selects (r : RclkId) (n : Fin 4) (s : State) (hsel : fld (rclkCfg s r) 47 46 = 1)
    (hen : bitOf (rclkCfg s r) 41 = true) (hsr : panelReleased s (r / 16) = true) :
    ∃ t, execClockSwitchStart r n s = .next t ∧ RclkOnly s t r ∧
      rclkGet t r = rclkSelected (rclkGet s r) (rselValue s r n) := by
  unfold execClockSwitchStart rclkSelected
  simp only [rclkPanel, hsel, hen, hsr, and_self, if_true]
  cases hpend : (rclkGet s r).pend with
  | some m => exact ⟨_, rfl, rclkOnly_rclkPut .., by simp⟩
  | none =>
    by_cases hsrc : (rclkGet s r).src = rselValue s r n
    · exact ⟨s, if_pos hsrc, rclkOnly_refl .., by simp [hsrc]⟩
    · exact ⟨_, if_neg hsrc, rclkOnly_rclkPut .., by simp [hsrc]⟩

/-- The switch under way completes: its value drives the clock and a queued value that differs starts the next one. -/
theorem rclkGet_rclkSwitched (r : Nat) (s : State) (m : Nat) (hpend : (rclkGet s r).pend = some m) :
    rclkGet (rclkSwitched r s) r = { rclkGet s r with
      src := m, swCnt := ((rclkGet s r).swCnt + 1) % 65536, queued := none, fclkCnt := (rclkGet (rclkSwitched r s) r).fclkCnt
      pend := if (rclkGet s r).queued = some m then none else (rclkGet s r).queued } := by
  unfold rclkSwitched
  simp only [hpend, rclkGet_rclkPut_same]
  cases (rclkGet s r).queued with
  | none => rfl
  | some q => by_cases hq : q = m <;> simp [hq]

theorem rclkOnly_rclkSwitched (r : Nat) (s : State) : RclkOnly s (rclkSwitched r s) r := by
  cases hpend : (rclkGet s r).pend with
  | none => simp only [rclkSwitched, hpend, rclkOnly_refl]
  | some m => simp only [rclkSwitched, hpend, rclkOnly_rclkPut]

theorem execClockSwitchDone_of_pend (r : RclkId) (s : State) (m : Nat) (hpend : (rclkGet s r).pend = some m) :
    execClockSwitchDone r s = .next (rclkSwitched r s) := by
  rw [execClockSwitchDone, hpend]

/-! ### Gating (R97) -/

theorem execClockGate_of_tap (r : RclkId) (s : State) (hgate : fld (rclkCfg s r) 45 44 = 1) (hen : bitOf (rclkCfg s r) 41 = true)
    (htap : tapUsed s r 1 = true) : execClockGate r s = .next (rclkPut s r { rclkGet s r with gated := true }) :=
  if_pos ⟨hgate, hen, htap⟩

theorem execClockGate_of_unused (r : RclkId) (s : State) (htap : tapUsed s r 1 = false) : execClockGate r s = .next s :=
  if_neg fun ⟨_, _, hused⟩ => Bool.false_ne_true (htap.symm.trans hused)

theorem execClockUngate_of_gated (r : RclkId) (s : State) (hg : (rclkGet s r).gated = true) :
    execClockUngate r s = .next (rclkPut s r { rclkGet s r with gated := false }) :=
  if_pos hg

/-- Settles O9: every command puts the named clock's entry or leaves the state, case by case of its equation. -/
theorem clockSwitch : Obligations.ClockSwitch := by
  unfold Obligations.ClockSwitch
  intro r n s v
  simp only [exec_clockSwitchStart, exec_clockSwitchDone, exec_clockGate, exec_clockUngate]
  refine ⟨fun hsel hen hsr => ?start, fun m hpend => ?done, fun htap => ?unused, fun hgate hen htap => ?gate, fun hg => ?ungate⟩
  case start =>
    obtain ⟨t, hexec, honly, hget⟩ := execClockSwitchStart_selects r n s hsel hen hsr
    rw [rselValue_fin4] at hget
    exact ⟨t, hexec, honly, hget⟩
  case done =>
    exact ⟨_, execClockSwitchDone_of_pend r s m hpend, rclkOnly_rclkSwitched .., rclkGet_rclkSwitched r s m hpend⟩
  case unused => exact ⟨s, execClockGate_of_unused r s htap, rfl⟩
  case gate => exact ⟨_, execClockGate_of_tap r s hgate hen htap, rclkOnly_rclkPut .., rclkGet_rclkPut_same ..⟩
  case ungate => exact ⟨_, execClockUngate_of_gated r s hg, rclkOnly_rclkPut .., rclkGet_rclkPut_same ..⟩

end Sys2Proof.Machine
end
